-- ==== Sys2Proof/Word.lean ====
section
/-!
DEFINITION. The word types of the Plenu (R11: registers are 32 bits, little-endian) and their plainest arithmetic.
-/

namespace Sys2Proof

/-- A register word (R11). -/
abbrev Word := BitVec 32

/-- A byte of a protected memory, a link frame or the head memory. -/
abbrev Byte := BitVec 8

/-- A 48-bit time stamp: fabric time (R74), loop time (R185) or device time (R24). -/
abbrev Time48 := BitVec 48

end Sys2Proof
end

