-- ==== Sys2Proof/Syntax.lean ====
section
/-!
DEFINITION. The commands of the Plenu: one constructor of `Instr` per row of spec/opcode_table.json, in the table's order.
A command's operands are what the row's rule names: an instance, an address, a value, a time stamp, a value measured
outside the part. No row of the table gives bits, so no word spells a command (Decode.lean).
-/

namespace Sys2Proof

/-- The three planes (R12). -/
inductive Plane where
  | control | data | management
  deriving DecidableEq, Repr, Inhabited

/-- The three host links (R335). -/
inductive HostLink where
  | pcie | spi | i2c
  deriving DecidableEq, Repr, Inhabited

/-- What the board does at the pin of a sprig's input terminal (R72, R73): the level it drives there from then on, if any, and the
instant in fabric time. -/
structure PinChange where
  term : Fin 4
  drive : Option Bool
  time : Time48
  deriving DecidableEq, Repr, Inhabited

/-- The wake sources of R281; a sprig wakes by a change at one of its pins (R97). -/
inductive WakeSource where
  | pin | i2c | pcie
  | sprig (n : Fin 96) (change : PinChange)
  | timer | clockLoss | command
  deriving DecidableEq, Repr, Inhabited

/-- The clocks the clock-loss detector watches (R285), in the order of MGT_CLKSTAT bits 8 to 11. -/
inductive WatchedClock where
  | x32 | reference | pll | mgmtRc
  deriving DecidableEq, Repr, Inhabited

/-- The chip reset causes of R346, in the order of MGT_RSTCAUSE bits 0 to 5. -/
structure ResetCauses where
  power : Bool := false
  pin : Bool := false
  cmd : Bool := false
  hot : Bool := false
  fault : Bool := false
  vcore : Bool := false
  deriving DecidableEq, Repr, Inhabited

/-- What ends an OTP operation early (R334). -/
inductive OtpAbortCause where
  | supplyWarning | otpokLost | vinRange
  deriving DecidableEq, Repr, Inhabited

/-- A line-store window access of 1 to 8 bytes (R252): a read of `len` bytes or a write of the bytes given. -/
inductive WinAccess where
  | read (len : Nat)
  | write (bytes : List Byte)
  deriving DecidableEq, Repr, Inhabited

/-- An access over a host link to the address map (R30, R37): a write of the bytes given, or a read of `len` bytes. -/
inductive BusAccess where
  | read (len : Nat)
  | write (bytes : List Byte)
  deriving DecidableEq, Repr, Inhabited

namespace Machine

/-- The summary of a scrub (R259). -/
structure ScrubSum where
  memsel : Nat := 0
  corr : Nat := 0
  uncorr : Nat := 0
  first : Nat := 0
  last : Nat := 0
  remapped : Nat := 0
  deriving DecidableEq, Repr, Inhabited

/-- What a TYPE 0x29 message reports to the MEM block (R245): what a scrub found, or a region tested and the byte offset of its last
failing word. -/
inductive MemResult where
  | scrubbed (sum : ScrubSum)
  | tested (failed : Option Nat)
  deriving DecidableEq, Repr, Inhabited

end Machine

/-- The link power states the endpoint takes as the host directs (R278). -/
inductive LinkPower where
  | l1 | l23
  deriving DecidableEq, Repr, Inhabited

/-- A register of the PCIe configuration space by the name R336 gives it; where the capabilities lie is open. -/
inductive ConfigReg where
  /-- A dword of the Type 0 header, by its number. -/
  | header (dword : Fin 16)
  /-- Power management control and status. -/
  | pmControl
  /-- The first dword of the MSI-X capability, whose upper half is its message control. -/
  | msixControl
  /-- Any other offset. -/
  | other (offset : BitVec 12)
  deriving DecidableEq, Repr, Inhabited

/-- What a node samples when it receives SYNC (R226, R229): its encoder count, currents, bridge voltage and inputs, and its overcurrent,
overtemperature and undervoltage. -/
structure NodeSample where
  enc : BitVec 32 := 0
  curA : BitVec 16 := 0
  curB : BitVec 16 := 0
  vbridge : BitVec 16 := 0
  inputs : BitVec 2 := 0
  trouble : BitVec 3 := 0
  deriving DecidableEq, Repr, Inhabited

/-- What a node says of itself in IDENT (R228). -/
structure NodeIdent where
  caps : Byte := 0
  solenoids : Byte := 0
  inputs : Byte := 0
  hwrev : Byte := 0
  uid : BitVec 64 := 0
  deriving DecidableEq, Repr, Inhabited

/-- A conversion of a head port's sense converter (R170): fabric time at the end of its window of 12.5 ns, and the raw code. -/
structure SenseSample where
  stop : Time48
  code : BitVec 12
  deriving DecidableEq, Repr, Inhabited

/-- How one try of a sideband transaction ends (R172): acknowledged, not acknowledged, or failed by SCL held low for more than 25 ms. -/
inductive SbTry where
  | ack | nak | stuck
  deriving DecidableEq, Repr, Inhabited

/-- The commands. -/
inductive Instr where
  -- inter-plane message links (R17 to R19)
  | linkMessageReceive (dir : Fin 6) (msg : BitVec 96)
  | replayRequest (dir : Fin 6) (seq : BitVec 8)
  | heartbeatMessage (dir : Fin 6)
  | linkFailed (dir : Fin 6)
  -- seam handshake (R22, R109, R157, R160)
  | seamStop (port : Fin 4) (tag : BitVec 32) (fpos : BitVec 29)
  | seamHeld (port : Fin 4) (tag : BitVec 32)
  | seamResume (port : Fin 4) (tag : BitVec 32) (cancel : Bool)
  | seamRun (port : Fin 4) (tag : BitVec 32)
  | seamBackupStart (axis : Fin 8)
  | seamHandback (axis : Fin 8)
  -- fault collector and safe state (R312, R317)
  | faultReport (plane : Plane) (source : BitVec 8) (kind : BitVec 8) (index : BitVec 24) (time : Time48)
  | safeStateEntry
  -- quiescence exchange (R26)
  | quiescenceRequest (plane : Plane)
  | quiescenceConfirm (plane : Plane)
  | quiescenceRefuse (plane : Plane)
  -- memory controller messages (R245)
  /-- `fails`: the words, 0 to 31, that fail a march read where the command is a transparent-test step. -/
  | memCommandMessage (memsel : Fin 9) (fails : List Nat)
  /-- `res`: what the message reports. -/
  | memResultMessage (memsel : Fin 9) (res : Machine.MemResult)
  -- host accesses (R36, R40)
  /-- The step holds a narrow read as well as a write (95_what_each_step_holds.md, R30). -/
  | registerWrite (link : HostLink) (addr : BitVec 32) (acc : BusAccess)
  | heldRequestServe
  -- topiary loader (R44, R45, R64, R66)
  | topSdataWrite (data : Word)
  | topSdataRead
  | validate
  | validationEnd
  | activate
  | activationSwap
  | clear
  | clearDone
  -- sprigs (R73 to R94)
  | sprigCommit (n : Fin 96)
  | sprigCommitIdle (n : Fin 96)
  | sprigDiscard (n : Fin 96)
  | sprigBoundary (n : Fin 96)
  | groupCommit
  /-- What the board drives at input terminals from `stamp` on. -/
  | inputEdgeAccept (n : Fin 96) (drives : List (Fin 4 × Option Bool)) (stamp : Time48)
  | pwmPeriodStart (n : Fin 96)
  | stepEmit (n : Fin 96)
  /-- `code`: the code the channel delivers. -/
  | peakHoldSample (n : Fin 96) (code : BitVec 16)
  | tachGateEnd (n : Fin 96)
  | caploRead (n : Fin 96) (term : Fin 4)
  | sosTsloRead (n : Fin 96)
  | fabTimeloRead
  | illegalRead (n : Fin 96)
  | ptoRead (n : Fin 96)
  -- position base (R99 to R106)
  | posFwdWrite (axis : Fin 8) (fwd : BitVec 2)
  | posloRead (axis : Fin 8)
  | excDepthRead (axis : Fin 8)
  | axisStall (axis : Fin 8)
  | excursionLong (axis : Fin 8)
  -- lines (R105, R112, R114, R128, R143)
  | lineCommit (port : Fin 4) (vhs : List SenseSample)
  | axisUnsettledAtLine (port : Fin 4)
  | sosMissing (port : Fin 4)
  | lineFire (port : Fin 4)
  | lineAssemble (port : Fin 4)
  -- replay (R126, R271)
  | replayStart (port : Fin 4)
  | replayComplete (port : Fin 4)
  -- print data path registers (R123, R135, R136)
  | pdpCommit (port : Fin 4)
  | pdpCommitSwap (port : Fin 4)
  | pdpDiscard (port : Fin 4)
  | pdpLowmarkWrite (port : Fin 4) (low : BitVec 16)
  | unplRead (port : Fin 4)
  -- nozzle health (R138 to R141)
  | healthTestGo (port : Fin 4)
  | healthTestCycle (port : Fin 4) (fireAt : Time48) (samples : List SenseSample)
  | healthTestAbort (port : Fin 4)
  -- energy, watchdog, temperature, caps (R146 to R153, R170)
  | energyCommit (port : Fin 4)
  | energyDiscard (port : Fin 4)
  | clampsRead (port : Fin 4)
  /-- How long the strobe has been active by the watchdog's own delay, in ns. -/
  | watchdogCut (port : Fin 4) (strobe : Fin 4) (active : Nat := 0)
  /-- The raw codes of the millisecond's 64 conversions of HPn_TS and the latest one of HPn_VHS. -/
  | headTempPublish (port : Fin 4) (ts : Vector (BitVec 12) 64) (vhs : BitVec 12 := 0)
  | capChange (port : Fin 4)
  -- seam control and supply (R155, R161)
  | seamPause (port : Fin 4)
  | seamRelease (port : Fin 4)
  | seamcntRead (port : Fin 4)
  | supplyWarning
  | supplyWarningClear
  -- heads and consumables (R172 to R181)
  | sidebandPoll (port : Fin 4) (tries : List SbTry) (headId : BitVec 64) (hformat : BitVec 16) (nozzles : BitVec 16)
  /-- RESP_READY, and bytes 0x0000 to 0x000B, which an acceptance repeated by the host reads before its first poll. -/
  | respReadyPoll (port : Fin 4) (ready : Byte) (headId : BitVec 64 := 0) (hformat : BitVec 16 := 0) (nozzles : BitVec 16 := 0)
  | acceptanceEnd (port : Fin 4) (response : BitVec 256) (slotA slotB : BitVec 512)
  | hctrlAuth (port : Fin 4)
  | hctrlUsage (port : Fin 4)
  /-- Whether every page write was acknowledged within its 10 ms, and the 64 bytes read back. -/
  | usageCommitEnd (port : Fin 4) (written : Bool) (readBack : BitVec 512 := 0)
  | sbTransfer (port : Fin 4)
  | sbTransferDone (port : Fin 4) (tries : List SbTry) (data : Word)
  | dropsloRead (port : Fin 4)
  -- arming (R182, R183, R125)
  | arm (port : Fin 4) (dryrun : Bool)
  | disarm (port : Fin 4)
  | disarmComplete (port : Fin 4)
  -- loop cores (R185 to R222)
  | sampleTick (core : Fin 4) (slot : Fin 24)
  | sampleJobDone (core : Fin 4)
  | outputTick (core : Fin 4) (slot : Fin 24)
  | slotRun (core : Fin 4) (slot : Fin 24)
  | slotHold (core : Fin 4) (slot : Fin 24)
  | slotPark (core : Fin 4) (slot : Fin 24)
  | coefCommit (core : Fin 4) (slot : Fin 24)
  | coefDiscard (core : Fin 4) (slot : Fin 24)
  | genStop (core : Fin 4) (slot : Fin 24)
  | genMove (core : Fin 4) (slot : Fin 24)
  | genJog (core : Fin 4) (slot : Fin 24)
  | testSignalGo (core : Fin 4) (slot : Fin 24)
  | testSignalStop (core : Fin 4) (slot : Fin 24)
  | testSignalEnd (core : Fin 4) (slot : Fin 24)
  | captureArm (core : Fin 4)
  | captureStop (core : Fin 4)
  | capdataRead (core : Fin 4)
  | ltimeloRead (core : Fin 4)
  | sampleloRead (core : Fin 4) (slot : Fin 24)
  | misscntRead (core : Fin 4) (slot : Fin 24)
  | migrationGo (core : Fin 4) (slot : Fin 24)
  | migrationTransfer (core : Fin 4) (slot : Fin 24)
  | discardsRead (core : Fin 4) (slot : Fin 24)
  -- Tohevik ports (R225 to R240)
  /-- `samples`: what each node of the chain, by its place on the cable, samples when SYNC reaches it; none where its pair or its supply
  does not let it. -/
  | tlinkCycleStart (tl : Fin 8) (samples : Vector (Option NodeSample) 8 := Vector.replicate 8 none)
  /-- `flips`: the line bits inverted on the pair during the frame, ten to a symbol; so for every frame below. -/
  | feedback (tl : Fin 8) (pos : Fin 8) (flips : BitVec 240)
  | nodeLost (tl : Fin 8) (pos : Fin 8)
  | train (tl : Fin 8)
  /-- What the frame says (R228), and `flips`; so for CONFIG_ACK. -/
  | ident (tl : Fin 8) (pos : Fin 8) (caps solenoids inputs hwrev : Byte) (uid : BitVec 64) (flips : BitVec 240 := 0)
  | configAck (tl : Fin 8) (pos : Fin 8) (echo : BitVec 48) (status : Byte) (flips : BitVec 240 := 0)
  | trainingTimeout (tl : Fin 8)
  -- satellite nodes (R231, R233, R235, R237 to R239)
  | command (tl : Fin 8) (node : Fin 8) (flips : BitVec 240)
  | unaddr (tl : Fin 8) (flips : BitVec 240 := 0)
  | address (tl : Fin 8) (flips : BitVec 240)
  | config (tl : Fin 8) (node : Fin 8) (flips : BitVec 240)
  | restore (tl : Fin 8) (node : Fin 8) (flips : BitVec 240)
  | suspend (tl : Fin 8) (node : Fin 8) (flips : BitVec 240)
  | safeFrame (tl : Fin 8) (node : Fin 8) (flips : BitVec 240)
  | nodeLossTimeout (tl : Fin 8) (node : Fin 8)
  | nodeCtrlRestore (tl : Fin 8) (pos : Fin 8)
  -- fault injection (R241, R242)
  | injectionGo (tl : Fin 8)
  | injectionStop (tl : Fin 8)
  | linkInjectionGo
  | linkInjectionStop
  /-- The count of port `tl`, or of the inter-plane links where `none`. -/
  | injcntRead (tl : Option (Fin 8))
  | plncrcRead (tl : Fin 8) (pos : Fin 8)
  | mgtTestPermitWrite (permit : Bool)
  -- memories (R249 to R261)
  | hostWindowAccess (link : HostLink) (offset : BitVec 24) (acc : WinAccess)
  | memBankpwrWrite (value : Word)
  | bankReady (bank : Fin 16)
  | scrubGo
  | scrubAbort
  | scrubDone
  | ttRegion (fails : List Nat)
  -- DMA (R262 to R270)
  | dmaStart (ch : Fin 64)
  | dmaStop (ch : Fin 64)
  | dmaDescriptor (ch : Fin 64)
  | dmaGrant (eng : Fin 4)
  | dmaBurst (eng : Fin 4)
  | dmaBurstComplete (ch : Fin 64)
  | completionRecordPost (ch : Fin 64)
  | dmaDiscRead (ch : Fin 64)
  -- power ladder, clocks, supply (R277 to R289)
  | ladderGo (target : BitVec 3)
  | rungEntry
  | linkWaitTimeout
  | wakeEvent (source : WakeSource)
  | aonTimerExpiry
  | exitStep
  | clockLoss (clk : WatchedClock)
  | vcoreFault
  | dipsRead
  -- thermal and calibration (R291 to R308)
  | sensorEvaluation (counts : Vector (BitVec 16) 7)
  | sensorCheck (patternOk : Bool) (countLow countHigh : BitVec 16)
  | modelUpdate (milliwatts : Nat) (activity : Vector Nat 6)
  | calRound
  | calRoundStart
  | calChannelDone (rzero rref : Nat)
  | calStore
  | calSetdataAccess (write : Option Word)
  | implRead
  -- fault records (R312 to R322)
  | recordRelease
  | fltAck (id : BitVec 16)
  | fltSafeEnd
  | fltReactWrite (source : BitVec 8) (value : Word)
  | fltHeadRead
  | lostRead
  | heartbeatTimeout (block : Fin 26)
  -- OTP (R332 to R334)
  | otpProgGo
  | otpPulseVerify (tight loose : Bool)
  | otpAbort (cause : OtpAbortCause)
  -- resets and boot (R346 to R348)
  | chipReset (causes : ResetCauses)
  | mgtCmdReset (value : Word)
  | boot (xtalOscillates : Bool)
  | pcieHotReset
  | pcieLinkDown
  -- octal SPI and management I2C (R340 to R344)
  | spiWrite (addr : BitVec 32) (bytes : List Byte)
  | spiRead (addr : BitVec 32) (len : Nat)
  | spiReadTimeout
  | spiStatus
  | i2cWrite (offset : BitVec 24) (bytes : List Byte)
  | i2cRead (offset : BitVec 24) (len : Nat)
  -- JTAG (R349)
  | bypass
  | idcode
  | samplePreload (bits : List Bool)
  | extest
  | jtagTestExit
  | trstNLow
  -- outside events
  | pcieReferencePresent
  | crystal32kStart
  | pcieConfigurationRequest (reg : ConfigReg) (write : Option Word)
  | pcieLinkUp
  | pcieLinkPowerState (state : LinkPower)
  | pcieCompletionTimeout (ch : Fin 64)
  | nodePowerUp (tl : Fin 8) (node : Fin 8) (ident : NodeIdent := {})
  | nodeOriginatesUpstream (tl : Fin 8) (node : Fin 8)
  | adcStartupCalibration (rzero rref : Vector Nat 17)
  | supplyRecover
  | debugTestInstruction
  | gcmdGoReservedOp (core : Fin 4) (slot : Fin 24)
  deriving DecidableEq, Repr

end Sys2Proof
end

