-- ==== Sys2Proof/Decode.lean ====
section
/-!
DEFINITION. The Plenu executes no program (R4): its commands are accesses, messages, frames and events, and no row of
spec/opcode_table.json gives a bit. So no word spells a command.
-/

namespace Sys2Proof

/-- The command a word of the table's bits spells: none, since no row gives bits. -/
def decodeTableWord (_nbits _w : Nat) : Option Instr := none

end Sys2Proof
end

