-- ==== Sys2Proof/Config.lean ====
section
/-!
DEFINITION. The values the spec leaves open, as opaque constants: nothing in Lean can evaluate one, so a claim holds
whatever it is. Each has an entry in the assumption log. `n` is a count of free values taken, held in `State.free`.
-/

namespace Sys2Proof.Config

/-- CHALLENGE: a fresh 256-bit value of the on-die entropy source, "never reused" (R175). Free value, log entry 5. -/
opaque entropy : Nat → BitVec 256

/-- The TYPE code of a heartbeat message, which R19 does not give, up to its top bit where it meets a listed type. Free value, log entry
5. -/
opaque heartbeatCode : BitVec 8

/-- The payload of a message whose layout no rule gives (TYPE 0x20, 0x28 to 0x32), from its type and the fields the rules say it carries.
Free value, log entry 133. -/
opaque payloadOf : BitVec 8 → List Nat → BitVec 64

/-- Error of the internal sine table at an angle in 2^-32 turn (R201: within ±2^-24). Free value, log entry 6. -/
opaque sineError : BitVec 32 → Int

/-- Error of the internal cosine table at an angle in 2^-32 turn (R201). Free value, log entry 6. -/
opaque cosineError : BitVec 32 → Int

/-- Rounding error of a chirp's phase step at sample `n`, in 2^-32 turn, from F0, F1, TSLEN and RATE (R218 gives the law, not its
rounding). Free value, log entry 6. -/
opaque chirpError : (f0 f1 len rate n : Nat) → Int

/-- What a cell reads after an aborted programming pulse (R334: undetermined): tight and loose reading. Free value,
log entry 8. -/
opaque abortedCell : Nat → Bool × Bool

/-- What a configuration register reads in the bits R336 does not list ("the values the specification requires"). Free value, log
entry 9. -/
opaque pcieItem : ConfigReg → Word

/-- A byte the host reads on the SPI pins where the spec gives none: nobody drives them at L3 and deeper (R342), and a READ with FRAME
set performs no access. By its place in the transaction. Free value, log entry 9. -/
opaque undrivenSpi : (n place : Nat) → BitVec 8

/-- Contents of the boundary scan register sampled from the balls (R349). Free value, log entry 9. -/
opaque sampledPins : Nat → List Bool

/-- The trims of words 3 to 5 have no stated effect on any register; the built-in nominal trims of R327. Free value,
log entry 8. -/
opaque nominalTrim : Fin 3 → Word

/-- Fire position of a stop line of a port that has no anchor yet (R154 names x_N of R110, which needs one). Free value, log
entry 17. -/
opaque unanchored : Nat → Int

/-- Terminal level of DIR for a positive rate (R88 does not give it). Free value, log entry 18. -/
opaque dirForward : Bool

/-- The level at the pad of a pin that nothing drives and nothing pulls (R72: undefined, and it may change at any time), by pin and fabric
time. Free value, log entry 64. -/
opaque floatingPin : (pin : Nat) → BitVec 48 → Bool

/-- OUTPUT of a peak-hold slot, whose law computes no u (R205), from its hold current. Free value, log entry 25. -/
opaque peakHoldOutput : Int → Int

/-- The electrical angle of a slot whose CPR is 0 (R201 divides by it), from the axis position. Free value, log entry 25. -/
opaque angleWithoutCpr : Int → BitVec 32

/-- A PRBS bit of an ORDER outside 7 to 15 (R217), by sample. Free value, log entry 25. -/
opaque prbsBit : (order n : Nat) → Bool

/-- Cable delay of a Tohevik chain in symbols, which the round trip of R226 contains. Free value, log entry 29. -/
opaque cableDelay : Fin 8 → Nat

/-- A raw code of an ADC modulator: a voltage outside the part (R305). Free value, log entry 32. -/
opaque adcRaw : (channel n : Nat) → BitVec 16

/-- The measured zero and reference of a head sense converter, 12 bits (R308): voltages inside the part. Free value, log entry 32. -/
opaque senseCodes : (port n : Nat) → BitVec 12 × BitVec 12

/-- A zone's power in mW when no zone had any activity (R295 divides by ΣA). Free value, log entry 31. -/
opaque idlePower : (milliwatts zone : Nat) → Nat

/-- 1 − e^(−1 ms/τ) of pole 3 in 2^-48 when THM_BOARD.TAU3 is 0, outside its range. Free value, log entry 31. -/
opaque poleWithoutTau : Nat

end Sys2Proof.Config
end

