-- ==== Sys2Proof/Machine/Bits.lean ====
section
/-!
DEFINITION. Bit fields of register words (R11: little-endian, reserved bits read 0), saturating and rounding arithmetic, byte
order, and the update of one element of a vector.
-/

namespace Sys2Proof.Machine

/-- Bits `lo + width − 1 : lo` of a natural number. -/
def bitsOf (n lo width : Nat) : Nat := (n >>> lo) % 2 ^ width

/-- A field of a register word. -/
def fld (w : Word) (lo width : Nat) : Nat := bitsOf w.toNat lo width

/-- A register word from its fields, each `(lo, width, value)`; every other bit is 0. -/
def pack : List (Nat × Nat × Nat) → Word
  | [] => 0
  | (lo, width, v) :: rest => BitVec.ofNat 32 (v % 2 ^ width * 2 ^ lo) ||| pack rest

/-- A one-bit field. -/
def flag (lo : Nat) (b : Bool) : Nat × Nat × Nat := (lo, 1, b.toNat)

/-- The low `width` bits of an integer in two's complement. -/
def twos (width : Nat) (x : Int) : Nat := (x % (2 ^ width : Nat)).toNat

/-- A `width`-bit two's-complement value as an integer. -/
def signed (width n : Nat) : Int :=
  let m := n % 2 ^ width
  if m < 2 ^ (width - 1) then m else (m : Int) - (2 ^ width : Nat)

/-- A saturating count. -/
def satAdd (cap n k : Nat) : Nat := min cap (n + k)

def clampInt (lo hi x : Int) : Int := max lo (min hi x)

/-- `a / b` rounded to nearest, ties toward +∞ (R195). -/
def divNearest (a : Int) (b : Nat) : Int := (2 * a + b) / (2 * (b : Int))

def ceilDiv (a b : Nat) : Nat := (a + b - 1) / b

/-- Steps of 1.25 ns, rounded up, of a time in ns. -/
def nsSteps (ns : Nat) : Nat := ceilDiv (4 * ns) 5

/-- Little-endian value of a byte list. -/
def leNat : List Byte → Nat
  | [] => 0
  | b :: rest => b.toNat + 256 * leNat rest

/-- The low `k` bytes of a value, little-endian. -/
def leBytes : (k : Nat) → Nat → List Byte
  | 0, _ => []
  | k + 1, n => BitVec.ofNat 8 n :: leBytes k (n / 256)

/-- `f` applied to element `i`. -/
def upd {α : Type} {n : Nat} (v : Vector α n) (i : Fin n) (f : α → α) : Vector α n := v.set i.val (f v[i.val]) i.isLt

/-- Element `i` where it exists. -/
def elem? {α : Type} {n : Nat} (v : Vector α n) (i : Nat) : Option α := v[i]?

/-- `f` applied to element `i` where it exists. -/
def updNat {α : Type} {n : Nat} (v : Vector α n) (i : Nat) (f : α → α) : Vector α n :=
  if h : i < n then v.set i (f v[i]) h else v

/-- `f` applied to every element, with its index. -/
def mapIdx {α : Type} {n : Nat} (f : Nat → α → α) (v : Vector α n) : Vector α n := v.mapIdx f

/-- A time stamp difference, modulo 2^48. -/
def since (now earlier : Time48) : Nat := (now - earlier).toNat

/-- A time after another, less than half the range apart. -/
def later (t now : Time48) : Bool := t != now && since t now < 2 ^ 47

/-- The later of two times less than half the range apart. -/
def laterTime (a b : Time48) : Time48 := if since a b < 2 ^ 47 then a else b

/-- Index of an instance number in a vector of four; an instance beyond the last takes none. -/
def fin? (n i : Nat) : Option (Fin n) := if h : i < n then some ⟨i, h⟩ else none

end Sys2Proof.Machine
end

