-- ==== Sys2Proof/Machine/Crc.lean ====
section
/-!
DEFINITION. The cyclic redundancy codes of the spec: CRC-8 of the inter-plane links (R17), CRC-16 of the Tohevik frames
(R228), CRC-32 of the image, the seals and the calibration sets (R47).
-/

namespace Sys2Proof.Machine

/-- One bit of a most-significant-first CRC of width `w`. -/
def crcStep {w : Nat} (poly : BitVec w) (crc : BitVec w) (b : Bool) : BitVec w :=
  if (crc.msb != b) then (crc <<< 1) ^^^ poly else crc <<< 1

/-- Bits of a value, most significant first. -/
def bitsMsb {n : Nat} (v : BitVec n) : List Bool := (List.range n).map fun i => v.getLsbD (n - 1 - i)

/-- CRC-8, x⁸ + x² + x + 1, initial value 0x00, over bits 95:8 of a message (R17). -/
def crc8 (v : BitVec 88) : BitVec 8 := (bitsMsb v).foldl (crcStep 0x07) 0

/-- CRC-16 CCITT, 0x1021, initial value 0xFFFF, no reflection (R228), over the bytes in order. -/
def crc16 (bytes : List Byte) : BitVec 16 :=
  bytes.foldl (fun crc b => (bitsMsb b).foldl (crcStep 0x1021) crc) 0xFFFF

/-- One bit of the reflected CRC-32 of R47 (0x04C1_1DB7 reflected is 0xEDB8_8320). -/
def crc32Bit (crc : BitVec 32) : BitVec 32 :=
  if crc.getLsbD 0 then (crc >>> 1) ^^^ 0xEDB88320 else crc >>> 1

def crc32Byte (crc : BitVec 32) (b : Byte) : BitVec 32 :=
  (List.range 8).foldl (fun c _ => crc32Bit c) (crc ^^^ b.setWidth 32)

/-- CRC-32 of IEEE 802.3 over the bytes (R47). -/
def crc32 (bytes : List Byte) : BitVec 32 := (bytes.foldl crc32Byte 0xFFFFFFFF) ^^^ 0xFFFFFFFF

end Sys2Proof.Machine
end

