-- ==== Sys2Proof/Machine/Sources.lean ====
section
/-!
DEFINITION. The master fault-source table (R310) and the reset value of FLT_REACTn formed from it.
-/

namespace Sys2Proof.Machine

/-- What R310 gives a source. `cls`: 1 corrected, 2 contained, 3 fatal (the encoding of FLT_HEAD.CLASS). -/
structure SourceInfo where
  cls : Nat
  vector : Nat
  blockReset : Bool
  deriving DecidableEq, Repr, Inhabited

/-- One FLT_REACTn register (R322): the writable fields. -/
structure React where
  int : Bool := false
  trap : Bool := false
  blkrst : Bool := false
  chiprst : Bool := false
  errn : Bool := false
  vector : Nat := 0
  deriving DecidableEq, Repr, Inhabited

/-- The master table of R310; `none` for a source number that is not in it. -/
def sourceInfo (n : Nat) : Option SourceInfo :=
  match n with
  | 0x01 | 0x03 | 0x04 | 0x06 => some ⟨1, 1, false⟩
  | 0x05 | 0x07 | 0x08 => some ⟨3, 0, false⟩
  | 0x10 | 0x12 | 0x13 | 0x14 => some ⟨1, 2, false⟩
  | 0x11 | 0x15 => some ⟨2, 2, false⟩
  | 0x20 => some ⟨2, 3, true⟩
  | 0x21 | 0x22 | 0x23 => some ⟨1, 3, false⟩
  | 0x24 => some ⟨2, 3, false⟩
  | 0x30 | 0x37 => some ⟨2, 4, true⟩
  | 0x31 | 0x32 | 0x35 => some ⟨1, 4, false⟩
  | 0x33 | 0x34 | 0x36 => some ⟨2, 4, false⟩
  | 0x40 | 0x41 | 0x43 | 0x44 => some ⟨1, 5, false⟩
  | 0x42 => some ⟨2, 5, false⟩
  | 0x50 | 0x51 | 0x52 | 0x54 => some ⟨1, 6, false⟩
  | 0x53 => some ⟨2, 6, true⟩
  | 0x60 | 0x61 | 0x63 | 0x64 => some ⟨1, 7, false⟩
  | 0x62 => some ⟨2, 7, false⟩
  | _ => none

/-- The reset value of FLT_REACTn (R310): interrupt for a source that is not fatal, trap and ERR_N for a fatal one. -/
def defaultReact (n : Nat) : React :=
  match sourceInfo n with
  | none => {}
  | some i => if i.cls = 3 then { trap := true, errn := true } else { int := true, vector := i.vector }

end Sys2Proof.Machine
end

