-- ==== Sys2Proof/Machine/State.lean ====
section
/-!
DEFINITION. The state of the Plenu as plain data: every register, memory, queue, counter and mode the spec gives the part,
and the queue of waiting commands. A register that is a view of other fields is computed where it is read
(RegsControl.lean, RegsData.lean, RegsMgmt.lean); each quantity has one home. `State.reset` is the part in a Power reset (R346), every register at its
reset value; BOOT (R348) brings it up. Log entries 2 to 4 name what the spec leaves open there.
-/

namespace Sys2Proof.Machine

/-- No command of the spec stops the machine with a fault: the block has no exception entry and its fault sources are
records in the state (R310, R312). -/
inductive Fault where
  deriving DecidableEq, Repr

/-- Why a command has no next state. -/
inductive Refusal where
  /-- The arm of `exec` has no meaning yet. Raised by an arm of Dispatch.lean only. Safe. -/
  | notModelled (mnemonic : String)
  /-- The command's operands do not have the shape its rule gives them (WellFormed.lean). Raised by every meaning whose
  operands have such a check. Safe: the spec describes no such command. -/
  | illFormed
  deriving DecidableEq, Repr

/-! ## Variants, time, protected memories -/

/-- The variants of R2. -/
inductive Variant where
  | p448 | p224 | p112
  deriving DecidableEq, Repr, Inhabited

/-- The time counters: fabric time in 1.25 ns steps (R74), loop time in 2.5 ns cycles (R185), device time at 48 MHz (R24);
`devFrac` is the part of a device-time count in 1/25 that has passed. -/
structure Times where
  fab : Time48 := 0
  loop : Time48 := 0
  dev : Time48 := 0
  devFrac : Nat := 0
  /-- Ticks of 5 ns since the run began, whatever clocks run: the time of the nodes, and of the board. -/
  passed : Nat := 0
  deriving DecidableEq, Repr, Inhabited

/-- A protected memory (R245): the data bytes (an unlisted byte is 0x00), the differences of the stored 13-bit code words
from the code of the data (R246; an unlisted byte has none), and the 256-byte blocks whose written bit is set (R253).
The three lists are in rising order; the first two list no zero. -/
structure Mem where
  cells : List Host.Cell := []
  upsets : List (Nat × BitVec 13) := []
  written : List Nat := []
  deriving DecidableEq, Repr, Inhabited

/-! ## The topiary image (R46 to R63) -/

/-- A sprig record (R53). -/
structure SprigRec where
  sprig : Nat
  mode : Nat
  loopOwned : Bool
  wake : Bool
  adc : Nat
  p0 : Nat
  p1 : Nat
  p2 : Nat
  deriving DecidableEq, Repr, Inhabited

/-- A pleach route (R54). -/
structure RouteRec where
  sprig : Nat
  term : Nat
  out : Bool
  pin : Nat
  pullUp : Bool
  pullDown : Bool
  openDrain : Bool
  invert : Bool
  deriving DecidableEq, Repr, Inhabited

/-- A head profile (R55). -/
structure Profile where
  port : Nat := 0
  mode : Nat := 0
  lanes : Nat := 1
  clk : Nat := 0
  nozzles : Nat := 1
  shiftLen : Nat := 0
  fireMax : Nat := 1
  axis : Nat := 0
  sosSprig : Nat := 0
  linePitch : Nat := 1
  rows : Nat := 1
  redund : Nat := 1
  stagger : List Nat := [0, 0, 0, 0, 0, 0, 0, 0]
  latW : Nat := 5
  stbMin : Nat := 20
  stbMax : Nat := 20
  eTarget : Nat := 1
  rh : Nat := 1
  strobes : Nat := 1
  throttlePct : Nat := 0
  tWarn : Nat := 0
  tThrot : Nat := 1
  tShut : Nat := 2
  tHyst : Nat := 1
  stopTh : Nat := 0
  resumeTh : Nat := 1
  backup : Nat := 0
  sosWindow : Nat := 1
  revBand : Nat := 0xFF
  testPct : Nat := 1
  vhsScale : Nat := 1000
  lsFirst : Nat := 0
  lsBanks : Nat := 1
  highMark : Nat := 2
  deriving DecidableEq, Repr, Inhabited

/-- A loop-slot record (R57). -/
structure SlotRec where
  core : Nat := 0
  slot : Nat := 0
  law : Nat := 1
  flags : Nat := 0
  rate : Nat := 1
  next : Nat := 0xFF
  inKind : Nat := 0
  inIndex : Nat := 0
  outKind : Nat := 0
  outIndex : Nat := 0
  auxKind : Nat := 0
  auxIndex : Nat := 0
  deadline : Nat := 0
  preload : Int := 0
  vmax : Nat := 0
  amax : Nat := 0
  jmax : Nat := 0
  inMin : Nat := 0
  inMax : Nat := 0
  deriving DecidableEq, Repr, Inhabited

/-- Coefficients of a law, Q1.30 (R59, R208). -/
structure Coefs where
  kp : Int := 0
  ki : Int := 0
  kd : Int := 0
  kf : Int := 0
  outMin : Int := -1073741824
  outMax : Int := 1073741823
  iLim : Int := 1073741823
  deriving DecidableEq, Repr, Inhabited

/-- A link-topology record (R60). -/
structure NodeRec where
  port : Nat
  position : Nat
  motor : Nat
  safe : Nat
  solMask : Nat
  inMask : Nat
  enc : Nat
  deriving DecidableEq, Repr, Inhabited

/-- A safe-state record (R61). -/
structure SafeRec where
  output : Nat
  safe : Nat
  hold : Nat
  deriving DecidableEq, Repr, Inhabited

/-- A fault-reaction record (R62). -/
structure ReactRec where
  source : Nat
  react : Nat
  vector : Nat
  deriving DecidableEq, Repr, Inhabited

/-- A parsed image: the configuration a validation prepares and an activation puts in force. -/
structure Image where
  id : Word := 0
  refsrc : Nat := 2
  domains : Nat := 0
  banks : List Nat := [0, 0, 0, 0]
  sprigs : List SprigRec := []
  routes : List RouteRec := []
  profiles : List Profile := []
  slots : List SlotRec := []
  laws : List (Nat × Coefs) := []
  nodes : List NodeRec := []
  safes : List SafeRec := []
  reacts : List ReactRec := []
  power : Option (Nat × Nat) := none
  deriving DecidableEq, Repr, Inhabited

/-! ## Management plane -/

/-- The quiescence exchange in progress (R26): what asked for it and each plane's answer. -/
inductive QuiescePurpose where
  | none | descent | activation
  deriving DecidableEq, Repr, Inhabited

/-- A plane's answer to TYPE 0x30: not asked yet, asked, waiting for its usage commits (R181), 0x31 sent, 0x32 sent with a reason, 0x31
recorded. -/
inductive QAnswer where
  | idle | asked | waiting | confirmed | refused (reason : Nat) | recorded
  deriving DecidableEq, Repr, Inhabited

structure Quiesce where
  purpose : QuiescePurpose := .none
  control : QAnswer := .idle
  data : QAnswer := .idle
  deriving DecidableEq, Repr, Inhabited

/-- What the ladder is doing (R277, R282). `exit k`: exit step k (0 for A to 6 for G) is next. `stuck`: a lost reference or
PLL keeps it at L3 until a chip reset (R285). -/
inductive LadderPhase where
  | idle | descend | exit (step : Nat) | stuck
  deriving DecidableEq, Repr, Inhabited

/-- The ladder registers (MGT_LADDER, MGT_LSTAT, MGT_WAKESRC, MGT_WAKEEN, MGT_AONTIMER). -/
structure Ladder where
  rung : Nat := 0
  target : Nat := 0
  targetReg : Nat := 0
  phase : LadderPhase := .idle
  /-- Deepest rung the transition has reached. -/
  deepest : Nat := 0
  reason : Nat := 0
  done : Bool := false
  cerr : Bool := false
  /-- The exit in progress ends an abandoned descent: it does not set DONE (R282). -/
  abandoned : Bool := false
  wakeSrc : BitVec 7 := 0
  wakeEn : BitVec 7 := 0x6F
  aonTimer : Word := 0
  deriving DecidableEq, Repr, Inhabited

/-- The reference in use (R284). -/
inductive RefSel where
  | none | xi25 | pcie
  deriving DecidableEq, Repr, Inhabited

/-- Whether the part runs, is held in reset, or waits in its boot order for the PCIe reference (R346, R348, R284). -/
inductive Phase where
  | running | inReset | waitReference
  deriving DecidableEq, Repr, Inhabited

/-- Supply, clocks, reset cause and test permit (MGT_SUPSTAT, MGT_CLKSTAT, MGT_RSTCAUSE, MGT_TEST). -/
structure Sys where
  variant : Variant := .p448
  fallback : Bool := false
  phase : Phase := .inReset
  warn : Bool := false
  recover : Bool := false
  dips : Nat := 0
  vinReg : Nat := 0
  /-- LX32, LREF, LPLL, LMGMT: W1C bits 8 to 11 of MGT_CLKSTAT. -/
  clkLoss : BitVec 4 := 0
  /-- The 25 MHz reference or the PLL has been lost since the last chip reset: the fast clocks stay stopped (R285). -/
  fastLost : Bool := false
  /-- Clock losses detected at L4 to L6, whose source 0x07 is raised at the end of exit step D (R285): MGT_CLKSTAT bits. -/
  lossOwed : List Nat := []
  x32backup : Bool := false
  x32ok : Bool := false
  pllLock : Bool := false
  ref : RefSel := .none
  causes : ResetCauses := { power := true }
  causeSource : Nat := 0
  permit : Bool := false
  jtagtm : Bool := false
  /-- A detection with the chip-reset reaction has been captured: its source (R315). -/
  resetOwed : Option Nat := none
  deriving DecidableEq, Repr, Inhabited

/-- A detection as it goes to the collector (R24, R311, R312): the detecting plane and instance, the device time of the detection and the
reactions FLT_REACTn held for the source at that moment (R315). -/
structure Detection where
  plane : Plane
  source : Nat
  kind : Nat
  index : Nat
  time : Time48
  react : React
  deriving DecidableEq, Repr, Inhabited

/-- What a TYPE 0x28 message asks of a memory controller (R245). -/
inductive MemCommand where
  /-- Scrub the words from one byte offset up to another (R257), or end that scrub. -/
  | scrub (first limit : Nat)
  | scrubAbort
  /-- Test one 256-byte region (R260). -/
  | testRegion (region : Nat)
  /-- The word at a byte offset has a remap entry (R256). -/
  | remap (offset : Nat)
  deriving DecidableEq, Repr, Inhabited

/-- One direction of an inter-plane message link (R17 to R19). -/
structure LinkDir where
  /-- SEQ of the next message sent. -/
  next : BitVec 8 := 0
  /-- SEQ the receiver expects. -/
  expected : BitVec 8 := 0
  /-- Replay buffer: the last 16 messages sent, oldest first. -/
  buffer : List (BitVec 96) := []
  /-- The SEQ a running replay started from. -/
  replayFrom : Option (BitVec 8) := none
  /-- How often each message not yet accepted has been replayed, by SEQ (R19). -/
  replays : List (BitVec 8 × Nat) := []
  /-- Messages sent and not yet arrived, oldest first. -/
  wire : List (BitVec 96) := []
  /-- Messages accepted, oldest first. -/
  accepted : List (BitVec 96) := []
  /-- The receiver's outstanding replay request. -/
  request : Option (BitVec 8) := none
  failed : Bool := false
  /-- Device time of the last accepted message that carries one (R314). -/
  lastTime : Time48 := 0
  /-- What the TYPE 0x20 messages carry that the collector has not yet taken, oldest first (R24): the layout of their payload is not given
  (log entry 133). -/
  reports : List Detection := []
  /-- What the TYPE 0x28 and TYPE 0x29 messages carry that no command has yet taken, each with its memory, oldest first (R245): their payload
  has no stated layout either. -/
  tasks : List (Nat × MemCommand) := []
  results : List (Nat × MemResult) := []
  /-- Device time at which the sender last put a message on the wire, and at which the receiver last saw one arrive, or the watching of the
  direction began (R19). -/
  sentAt : Time48 := 0
  heard : Time48 := 0
  deriving DecidableEq, Repr, Inhabited

/-- A fault injector (R241, R242): the fields of TLKn_INJCTRL or MGT_LINJCTRL. `sel`: bits 23:20. -/
structure Injector where
  active : Bool := false
  cerr : Bool := false
  kind : Nat := 0
  pattern : Nat := 0
  sel : Nat := 0
  nflip : Nat := 0
  n : Nat := 1
  bits : Word := 0
  count : Nat := 0
  lfsr : BitVec 16 := 0xACE1
  seen : Nat := 0
  /-- A reordered frame or message held back, and the cycles or messages left before it goes out. -/
  held : Option (BitVec 192 × Nat) := none
  deriving DecidableEq, Repr, Inhabited

structure Links where
  dirs : Vector LinkDir 6 := Vector.replicate 6 {}
  inj : Injector := {}
  deriving DecidableEq, Repr, Inhabited

/-- A fault record (R311, R312). `react`: bit 0 interrupt, 1 trap, 2 block reset, 3 chip reset, 4 ERR_N (R62). -/
structure Record where
  id : BitVec 16
  source : Nat
  cls : Nat
  kind : Nat
  index : Nat
  plane : Plane
  time : Time48
  mask : BitVec 128
  merges : Nat := 0
  react : BitVec 5
  vector : Nat
  preReset : Bool := false
  /-- Chip resets since the record opened. -/
  age : Nat := 0
  visible : Bool := false
  reserved : Bool := false
  deriving DecidableEq, Repr, Inhabited

/-- The fault collector (FLT). -/
structure Flt where
  /-- Open records in detection order. -/
  records : List Record := []
  /-- ID of the latest record; the next one's is one more (log entry 15). -/
  nextId : BitVec 16 := 0
  lost : Nat := 0
  ovf : Bool := false
  /-- OR of the reactions left unrecorded since OVF was last cleared (R313). -/
  ovfReact : BitVec 5 := 0
  cerr : Bool := false
  /-- The safe state is in force (the safe-state lines are asserted). -/
  safe : Bool := false
  /-- A source 0x07 or 0x08 has been detected since the last chip reset (R318). -/
  clockOrHeartbeat : Bool := false
  irqen : Bool := true
  react : Vector React 128 := Vector.ofFn fun i => defaultReact i.val
  /-- The record latched by the last FLT_HEAD read. -/
  latched : Option Record := none
  deriving DecidableEq, Repr, Inhabited

/-- A logical word of the OTP array (R323, R324): what copy A and copy B read under the tight and the loose reference. -/
structure OtpWord where
  aTight : Word := 0
  aLoose : Word := 0
  bTight : Word := 0
  bLoose : Word := 0
  deriving DecidableEq, Repr, Inhabited

/-- An OTP programming operation in progress (R333). -/
structure OtpOp where
  word : Nat
  bit : Nat
  copyB : Bool
  pulses : Nat
  deriving DecidableEq, Repr, Inhabited

/-- The OTP controller. -/
structure Otp where
  array : Vector OtpWord 128 := Vector.replicate 128 {}
  /-- Values in force from the boot reads (R324, R327, R330). -/
  force : Vector Word 128 := Vector.replicate 128 0
  marginal : Vector Word 128 := Vector.replicate 128 0
  /-- Region states of R330, REG 0 to 6. -/
  regions : Vector Nat 7 := Vector.replicate 7 0
  weak : Nat := 0
  marginalBits : Nat := 0
  /-- The key latch (R175). -/
  keyLatch : Option (BitVec 256) := none
  reason : Nat := 0
  aborted : Bool := false
  fail : Bool := false
  cerr : Bool := false
  done : Bool := false
  raddr : Nat := 0
  progSrc : Bool := false
  progWord : Nat := 0
  progBit : Nat := 0
  punlock : Word := 0
  op : Option OtpOp := none
  deriving DecidableEq, Repr, Inhabited

/-- A thermal zone (R291 to R297). Temperatures are in 1/65536 °C, the rises of the poles in 2^-48 °C (log entry 31). -/
structure Zone where
  reading : Int := 0
  count : Nat := 0
  /-- The last ten readings, newest first: the tenth is 1 ms old (R292). -/
  history : List Int := []
  onModel : Bool := true
  published : Int := 0x550000
  rise1 : Int := 0
  rise2 : Int := 0
  /-- Consecutive plausible readings within 8 °C of the model (R293). -/
  plausible : Nat := 0
  /-- No plausible reading yet since the start-up assumption of R297. -/
  fresh : Bool := true
  deriving DecidableEq, Repr, Inhabited

/-- A sensor check in progress (R294): its zone, whether the sensor passes, d, and the gates left. -/
structure SensorCheck where
  zone : Nat
  ok : Bool
  d : Int
  left : Nat
  deriving DecidableEq, Repr, Inhabited

/-- Thermal management (THM). -/
structure Thm where
  force : BitVec 6 := 0
  zones : Vector Zone 6 := Vector.replicate 6 {}
  ro6 : Int := 0
  ro6Count : Nat := 0
  ro6History : List Int := []
  spareBad : Bool := false
  ta : Int := 0x550000
  /-- R297: T_a is still the start-up assumption. -/
  taAssumed : Bool := true
  rise3 : Int := 0
  milliwatts : Nat := 0
  tau3 : Nat := 300
  r3 : Nat := 500
  impl : Nat := 0
  tdie : Int := 0x550000
  warn : Bool := false
  throt : Bool := false
  shut : Bool := false
  otpok : Bool := false
  /-- Start-up regime: until the first activation completes (R298). -/
  startup : Bool := true
  /-- Recovery regime: from a fatal source until the safe state ends (R298). -/
  recovery : Bool := false
  /-- Next sensor of the sensor check (R294). -/
  checkNext : Nat := 0
  check : Option SensorCheck := none
  deriving DecidableEq, Repr, Inhabited

/-- A calibrated converter: OFS, GAIN, TLAST, SUBST, DONE (R305, R306). -/
structure CalCh where
  ofs : Nat := 0
  gain : Nat := 0x8000
  tlast : Int := 0
  subst : Bool := false
  done : Bool := false
  deriving DecidableEq, Repr, Inhabited

/-- A calibration set in force (R302): TSET in °C, VREFD in µV, N0 to N6. -/
structure CalSet where
  tset : Int
  vrefd : Int
  counts : List Nat
  deriving DecidableEq, Repr, Inhabited

/-- Calibration (CAL). -/
structure Cal where
  en : Bool := true
  period : Nat := 1000
  /-- Channel in calibration; none when no round runs. 16 is the spare. -/
  channel : Option Nat := none
  tcal : Int := 0
  vrefd : Int := 0
  fail : BitVec 17 := 0
  setAddr : Nat := 0
  wordAddr : Nat := 0
  chans : Vector CalCh 17 := Vector.replicate 17 {}
  sense : Vector CalCh 4 := Vector.replicate 4 {}
  /-- When each sense converter was last calibrated, which takes 30 µs (R308); none once a publication has followed. -/
  senseAt : Vector (Option Time48) 4 := Vector.replicate 4 none
  /-- The start-up calibration is complete, so the channels deliver samples (R306). -/
  started : Bool := false
  /-- The newest raw codes of the channels and the spare, their number since the ADC domain started, and the ticks to the next (R305). -/
  raw : Vector (BitVec 16) 17 := Vector.replicate 17 0
  samples : Nat := 0
  wait : Nat := 2560
  /-- The sets in force since the last 1 ms evaluation, by rising TSET (R302 to R304). -/
  sets : List CalSet := []
  /-- T_cal when the last round started. -/
  lastRound : Int := 0
  /-- The field sets in keep RAM (R301). -/
  fieldSets : Vector (Vector Word 8) 8 := Vector.replicate 8 (Vector.replicate 8 0)
  deriving DecidableEq, Repr, Inhabited

/-- TOP_STAT.STATE (R44). -/
inductive LoaderState where
  | idle | validating | activating | clearing
  deriving DecidableEq, Repr, Inhabited

/-- The topiary loader (TOP) and the structure in force. -/
structure Top where
  state : LoaderState := .idle
  stagedValid : Bool := false
  activeValid : Bool := false
  reject : Nat := 0
  offset : Nat := 0
  valDone : Bool := false
  swapDone : Bool := false
  actRefused : Bool := false
  slotSel : Bool := false
  /-- WADDR as a word index, 0 to 16383. -/
  waddr : Nat := 0
  actId : Word := 0
  /-- What the last validation prepared (R64). -/
  prepared : Option Image := none
  /-- The structure in force; the empty image while none is active (R43). -/
  image : Image := {}
  /-- ACTIVATE was written with VALIDATE (R45). -/
  actAfterVal : Bool := false
  deriving DecidableEq, Repr, Inhabited

/-! ## Control plane -/

/-- A pending parameter set of a sprig (R75); `dutyV`, `dutyW` are the gang's other two duties (R84), `cycle` the FAB cycle in which
its COMMIT took effect (R76). -/
structure PendSet where
  regs : Vector Word 4
  idle : Bool := false
  dutyV : Word := 0
  dutyW : Word := 0
  cycle : Time48 := 0
  deriving DecidableEq, Repr, Inhabited

/-- What a loop slot delivers to a sprig (R206). -/
inductive SlotOut where
  /-- The slot has parked: the sprig goes idle at its boundary (R80). -/
  | park
  | duty (u : Int)
  | duties (u v w : Int)
  | rate (u : Int)
  | onHold (on : Bool) (hold : Nat)
  deriving DecidableEq, Repr, Inhabited

/-- An output edge placed in a PWM period (R82): grid step, high side or low side, new level. -/
structure PwmEdge where
  step : Nat
  high : Bool
  level : Bool
  deriving DecidableEq, Repr, Inhabited

/-- A capture entry (R91). -/
structure CapEntry where
  time : Time48
  rising : Bool
  ovf : Bool
  deriving DecidableEq, Repr, Inhabited

/-- CAPHI of a terminal as the last CAPLO read latched it. -/
structure CapLatch where
  valid : Bool := false
  rising : Bool := false
  ovf : Bool := false
  hi : BitVec 16 := 0
  deriving DecidableEq, Repr, Inhabited

/-- Quadrature decoder (R86, R87). -/
structure Quad where
  count : BitVec 32 := 0
  idxLatch : BitVec 32 := 0
  illegal : Nat := 0
  idxCount : BitVec 16 := 0
  deriving DecidableEq, Repr, Inhabited

/-- PWM (R82, R83): the period in progress, its start and length in steps, the levels at its start and the edges placed in it. -/
structure Pwm where
  periods : Word := 0
  dApplied : Nat := 0
  start : Time48 := 0
  len : Nat := 0
  highAtStart : Bool := false
  lowAtStart : Bool := false
  edges : List PwmEdge := []
  deriving DecidableEq, Repr, Inhabited

/-- Step and direction generator (R88, R89). `phase` is in 1/3 200 000 000 step. -/
structure Stepper where
  phase : Nat := 0
  /-- Rate in force, 1/16 step/s, after the clamp. -/
  rate : Int := 0
  steps : BitVec 32 := 0
  remain : Nat := 0
  dir : Bool := false
  /-- End of the STEP pulse that runs, fabric time. -/
  pulse : Option Time48 := none
  /-- A DIR edge to come, or one after which P2 still runs, fabric time. -/
  setup : Option Time48 := none
  deriving DecidableEq, Repr, Inhabited

/-- Peak-and-hold driver (R90): phase 0 off, 1 peak, 2 hold; samples spent in peak. -/
structure PeakHold where
  phase : Nat := 0
  /-- T0 is active. -/
  drive : Bool := false
  current : Nat := 0
  peakSamples : Nat := 0
  peakUs : Nat := 0
  pto : Nat := 0
  /-- The number of the sample acted on last (R305). -/
  seen : Nat := 0
  deriving DecidableEq, Repr, Inhabited

/-- Capture (R91). -/
structure Capture where
  queues : Vector (List CapEntry) 4 := Vector.replicate 4 []
  lost : BitVec 4 := 0
  latch : Vector CapLatch 4 := Vector.replicate 4 {}
  deriving DecidableEq, Repr, Inhabited

/-- Start-of-scan and drop-detect (R92). -/
structure Sos where
  time : Time48 := 0
  hiLatch : BitVec 16 := 0
  count : Word := 0
  /-- An edge of the right sense whose new level has not yet lasted P2 ns. -/
  candidate : Option Time48 := none
  deriving DecidableEq, Repr, Inhabited

/-- Tach (R93): the gate in progress with its start in fabric time, and the published results. -/
structure Tach where
  start : Time48 := 0
  count : Nat := 0
  first : Time48 := 0
  prev : Option Time48 := none
  last : Option Time48 := none
  n : Nat := 0
  tfreq : Word := 0
  period : Word := 0
  deriving DecidableEq, Repr, Inhabited

/-- A sprig (R53, R75 to R97). -/
structure Sprig where
  mode : Nat := 0
  loopOwned : Bool := false
  wake : Bool := false
  adc : Nat := 0xFF
  gang : Nat := 0
  p0 : Nat := 0
  p1 : Nat := 0
  p2 : Nat := 0
  shadow : Vector Word 4 := Vector.replicate 4 0
  pend : Option PendSet := none
  act : Vector Word 4 := Vector.replicate 4 0
  slotOut : Option SlotOut := none
  /-- FAB cycle in which the slot's output reached the sprig (R76). -/
  slotCycle : Time48 := 0
  active : Bool := false
  set : Bool := false
  cerr : Bool := false
  holdLvl : Bool := false
  event : BitVec 4 := 0
  tin : BitVec 4 := 0
  quad : Quad := {}
  pwm : Pwm := {}
  step : Stepper := {}
  peak : PeakHold := {}
  cap : Capture := {}
  sos : Sos := {}
  tach : Tach := {}
  deriving DecidableEq, Repr, Inhabited

/-- A fabric pin (R70 to R73): what the board drives on it, if anything, the raw level last seen at the pad, and the instant of its last
transition in fabric time. -/
structure Pad where
  drive : Option Bool := none
  level : Bool := false
  since : Time48 := 0
  deriving DecidableEq, Repr, Inhabited

/-- The pleach fabric (FAB), with the pins FP0 to FP119. -/
structure Fab where
  sprigs : Vector Sprig 96 := Vector.replicate 96 {}
  gcmask : Vector Word 3 := Vector.replicate 3 0
  timeHi : BitVec 16 := 0
  pads : Vector Pad 120 := Vector.replicate 120 {}
  deriving DecidableEq, Repr, Inhabited

/-- The record a POSLO read latches (R102). -/
structure AxisLatch where
  posHi : Word := 0
  vel : Word := 0
  hwm : Word := 0
  stat : Word := 0
  deriving DecidableEq, Repr, Inhabited

/-- A position-base axis (R98 to R109). Its COUNT is the count of the feeding sprig. -/
structure Axis where
  sprig : Nat := 0xFF
  fwd : Nat := 0
  vmin : Nat := 0
  /-- The window: count and time stamp of up to four fresh edges, oldest first (R101). -/
  window : List (BitVec 32 × Time48) := []
  hwm : BitVec 32 := 0
  /-- The excursion in progress: time stamp of the edge that left HWM (R106). -/
  exc : Option Time48 := none
  /-- Duration of the excursion completed since the latest fresh edge (R103). -/
  excDone : Time48 := 0
  lastFresh : Option Time48 := none
  stalled : Bool := false
  dirUp : Bool := false
  ill : Bool := false
  exclong : Bool := false
  stall : Bool := false
  unset : Bool := false
  depth : Nat := 0
  upd : BitVec 16 := 0
  latch : AxisLatch := {}
  deriving DecidableEq, Repr, Inhabited

/-- A generator command (R212): 0 STOP, 1 MOVE, 2 JOG, with the limits it was written with. -/
structure GenCmd where
  op : Nat := 0
  target : Int := 0
  vel : Int := 0
  acc : Nat := 0
  jerk : Nat := 0
  deriving DecidableEq, Repr, Inhabited

/-- What a seam does with the axis of a SEAM slot (R157, R160, R163). -/
inductive SeamPhase where
  | none | creep | stopping | backing | held | running
  deriving DecidableEq, Repr, Inhabited

/-- A change of velocity over `n` samples (R214): from the acceleration `a0`, in 2^-32 counts/s², the acceleration nears the level `h` by
`q` a sample at most, keeps within `top`, and is 0 at the end. -/
structure Leg where
  a0 : Int := 0
  q : Nat := 0
  top : Nat := 0
  h : Int := 0
  n : Nat := 0
  deriving DecidableEq, Repr, Inhabited

/-- A change of velocity, `cruise` samples at the speed reached, and another change. -/
structure Track where
  rise : Leg := {}
  cruise : Nat := 0
  fall : Leg := {}
  deriving DecidableEq, Repr, Inhabited

/-- A planned motion (R214): the mean of two tracks of one length in the proportion `part` to `whole`. Velocity and way since the start are
exact, `vel` in 2^-33/RATE counts/s and `way` in 2^-32/(6·RATE²) counts. -/
structure Motion where
  sense : Int := 1
  fast : Track := {}
  slow : Track := {}
  part : Int := 1
  whole : Int := 1
  n : Nat := 0
  /-- Samples done. -/
  k : Nat := 0
  vel : Int := 0
  way : Int := 0
  /-- Position at the start, and where the motion ends; none for a motion that ends at a velocity. 16 fractional bits. -/
  start : Int := 0
  goal : Option Int := none
  /-- Velocity at the end, 16 fractional bits. -/
  vEnd : Int := 0
  /-- A stop ahead of an approach with reversal: the next sample plans on. -/
  more : Bool := false
  deriving DecidableEq, Repr, Inhabited

/-- A profile generator (R210 to R215). `p` in 1/64 count, `v` in counts/s, `a` in counts/s², each with 16 fractional bits. -/
structure Gen where
  p : Int := 0
  v : Int := 0
  a : Int := 0
  cmd : GenCmd := {}
  /-- A command written and not yet applied: at the next tick, or at the first sample after release (R212). -/
  next : Option GenCmd := none
  /-- The command stored during a seam (R215). -/
  held : Option GenCmd := none
  clip : Bool := false
  arrived : Bool := false
  busy : Bool := false
  /-- The motion planned toward the present goal. -/
  motion : Option Motion := none
  /-- The next sample plans anew from the measured state (R211). -/
  replan : Bool := false
  seam : SeamPhase := .none
  /-- The creep phase is passed over: a cause arose during the run-up (R163). -/
  noCreep : Bool := false
  /-- Count the axis backs up to, x_b (R157). -/
  xb : Int := 0
  /-- Forward limit in force v_lim of R153, counts/s with 16 fractional bits. -/
  vlim : Option Nat := none
  regOp : Nat := 0
  regTarget : Int := 0
  regVel : Int := 0
  regAcc : Nat := 0
  regJerk : Nat := 0
  deriving DecidableEq, Repr, Inhabited

/-- A test signal (R216 to R218). -/
structure TestSig where
  kind : Nat := 0
  point : Bool := false
  order : Nat := 7
  holdn : Nat := 1
  amp : Int := 0
  len : Nat := 0
  f0 : Nat := 0
  f1 : Nat := 0
  active : Bool := false
  /-- Samples done since the start. -/
  n : Nat := 0
  lfsr : BitVec 16 := 0
  phase : BitVec 32 := 0
  /-- No tick has latched the signal since its start (R219). -/
  fresh : Bool := false
  /-- F0, F1 and TSLEN as a chirp's start found them (R218). -/
  sweep : Nat × Nat × Nat := (0, 0, 0)
  deriving DecidableEq, Repr, Inhabited

/-- Migration of a slot (R220 to R222). -/
structure Mig where
  dcore : Nat := 0
  dslot : Nat := 0
  h : Nat := 0
  /-- Destination and handover index of the accepted request. -/
  toCore : Nat := 0
  toSlot : Nat := 0
  toH : Nat := 0
  /-- Loop time at which the request reaches the schedulers (R220). -/
  reach : Time48 := 0
  pend : Bool := false
  done : Bool := false
  reason : Nat := 0
  discards : Nat := 0
  /-- The slot is the reserved destination of a migration from this core and slot. -/
  fromSlot : Option (Nat × Nat) := none
  deriving DecidableEq, Repr, Inhabited

/-- The parameters of R209, which apply from the first tick after their write. -/
structure Params where
  setpoint : Int := 0
  idref : Int := 0
  vnom : Nat := 0
  auxofs : Int := 0
  inofs : Int := 0
  poles : Nat := 1
  encsel : Nat := 0xF
  cpr : Nat := 0
  angofs : Word := 0
  malpha : Int := 0
  mgain : Int := 0
  tamb : Int := 0
  mdev : Nat := 0
  deriving DecidableEq, Repr, Inhabited

/-- What the seam needs to know of the axis at a sample: the forward sense, the creep speed v_c of R157 with 16 fractional bits, and
whether the axis has passed the fire position of the stop line by one count. -/
structure AxisView where
  forward : Int := 1
  creep : Int := 0
  passed : Bool := false
  /-- A scan-mode port's carriage: a seam completes the move in progress (R162). -/
  scan : Bool := false
  deriving DecidableEq, Repr, Inhabited

/-- A released sample job: its index, its output tick, and what was latched at its tick (R187, R208, R209, R212). -/
structure Job where
  k : Nat
  tOut : Time48
  /-- The native input value, and the value before INOFS where the input was delivered (R203). -/
  input : Int
  raw : Option Int
  aux : Option Int
  /-- Position of the angle axis in 1/64 count (R201), where that axis is fed. -/
  angle : Option Int
  /-- Set-point of an inner cascade slot from the outer output (R199). -/
  outer : Option Int
  /-- Measured position, where the input has one, and velocity for a plan (R211), 1/64 count and counts/s with 16 fractional bits. -/
  measP : Option Int
  measV : Int
  /-- Velocity and acceleration of the chain head's generator (R199), 16 fractional bits. -/
  genVel : Int
  genAcc : Int
  /-- The peak-hold output is in its hold phase, or is a node's (R205). -/
  hold : Bool
  /-- First sample of a release (R190). -/
  first : Bool
  testOn : Bool
  /-- First sample of the slot's test signal (R219). -/
  testFirst : Bool
  view : AxisView
  cmd : Option GenCmd
  par : Params
  coef : Coefs
  /-- A source core has already computed it although it lies at or beyond the handover (R221). -/
  ran : Bool := false
  deriving DecidableEq, Repr, Inhabited

/-- An output of a core waiting for its output tick (R188, R221). -/
structure Out where
  k : Nat
  tOut : Time48
  epoch : BitVec 8
  value : SlotOut
  u : Int
  complete : Bool
  /-- An output of the source core for a sample at or beyond the handover (R221). -/
  stale : Bool := false
  /-- First sample of the slot's test signal (R219). -/
  testFirst : Bool := false
  /-- The core and slot that computed it, where the slot has moved since (R219). -/
  source : Option (Nat × Nat) := none
  deriving DecidableEq, Repr, Inhabited

/-- Slot states (R189). -/
inductive SlotState where
  | parked | running | holding | free
  deriving DecidableEq, Repr, Inhabited

/-- A loop slot (R185 to R222). -/
structure Slot where
  cfg : SlotRec := {}
  state : SlotState := .free
  eshift : Nat := 30
  fshift : Nat := 30
  ffsel : Nat := 0
  supplyff : Bool := false
  velmode : Bool := false
  epoch : BitVec 8 := 0
  sensinv : Bool := false
  cerr : Bool := false
  miss : Bool := false
  set : Bool := false
  /-- Index of the next sample, and of the latest tick. -/
  kNext : Nat := 0
  kLatest : Nat := 0
  /-- First index and first tick of the present release (R186). -/
  k0 : Nat := 0
  tau0 : Time48 := 0
  sampleHi : BitVec 16 := 0
  misscnt : Nat := 0
  sat : BitVec 7 := 0
  coefShadow : Coefs := {}
  coefPend : Option Coefs := none
  coef : Coefs := {}
  par : Params := {}
  integ : Int := 0
  integD : Int := 0
  ePrev : Int := 0
  uPrev : Int := 0
  uPrevD : Int := 0
  /-- The next sample is the first of a release: e_prev is taken equal to its error (R190). -/
  firstSample : Bool := true
  outLast : Int := 0
  errLast : Int := 0
  refLast : Int := 0
  inLast : Int := 0
  tLast : Int := 0
  model : Int := 0
  validRun : Nat := 0
  countPrev : Int := 0
  auxPrev : Int := 0
  /-- An output has been delivered since the last release (R190). -/
  delivered : Bool := false
  /-- A PARK waits for the deliveries HOLD allowed (R189). -/
  parking : Bool := false
  jobs : List Job := []
  outs : List Out := []
  gen : Gen := {}
  ts : TestSig := {}
  mig : Mig := {}
  deriving DecidableEq, Repr, Inhabited

/-- A loop core with its capture unit (R193, R219). -/
structure Core where
  slots : Vector Slot 24 := Vector.replicate 24 {}
  timeHi : BitVec 16 := 0
  /-- The slot whose job is running. -/
  running : Option Nat := none
  capEn : BitVec 4 := 0
  capTrig : Bool := false
  capSel : Word := 0
  capMoved : BitVec 4 := 0
  capFull : BitVec 4 := 0
  capRun : BitVec 4 := 0
  capCnt : Vector Nat 4 := Vector.replicate 4 0
  capFirst : Vector Word 4 := Vector.replicate 4 0
  /-- CAPADDR as a word index. -/
  capAddr : Nat := 0
  deriving DecidableEq, Repr, Inhabited

/-- A node as the Plenu sees it (R230 to R237). -/
structure TNode where
  addressed : Bool := false
  configured : Bool := false
  lost : Bool := false
  cerr : Bool := false
  nodeSafe : Bool := false
  validCyc : Nat := 0
  ackSeq : Nat := 0
  cseq : Nat := 0
  command : BitVec 160 := 0
  /-- The command last sent, since CONFIG. -/
  sentCmd : Option (BitVec 160) := none
  fbSeq : Option Nat := none
  /-- Consecutive cycles over without accepted feedback, and whether the present cycle has had one. -/
  missing : Nat := 0
  seenNow : Bool := false
  plncrc : Nat := 0
  ncrc : Nat := 0
  ngap : Nat := 0
  nstale : Nat := 0
  caps : Word := 0
  uid : BitVec 64 := 0
  status : Byte := 0
  /-- SAFE goes out in the node's slot until RESTORE (R235). -/
  sendSafe : Bool := false
  restoring : Bool := false
  /-- Feedback with STATUS bit 0 clear since the last CONFIG or accepted RESTORE (R236). -/
  clearSeen : Bool := false
  /-- SAFE or UNADDR sent since then (R236). -/
  safeSent : Bool := false
  enc : BitVec 32 := 0
  curA : BitVec 16 := 0
  curB : BitVec 16 := 0
  vbridge : BitVec 16 := 0
  inputs : BitVec 2 := 0
  /-- Feedback frames have been accepted since the last training. -/
  delivered : Bool := false
  deriving DecidableEq, Repr, Inhabited

/-- Training steps (R233). -/
inductive TrainStep where
  | none | unaddr | address (pos : Nat) | config
  deriving DecidableEq, Repr, Inhabited

/-- TLKn_STAT.STATE. -/
inductive TlkState where
  | unused | training | running | safe | suspended
  deriving DecidableEq, Repr, Inhabited

/-- A frame on the upstream pair: its slot, its bits, and the running disparity at its start (R225). -/
structure UpFrame where
  pos : Nat
  bits : BitVec 192
  rd : Bool
  deriving DecidableEq, Repr, Inhabited

/-- A Tohevik port (TLK). -/
structure Tlk where
  state : TlkState := .unused
  step : TrainStep := .none
  /-- Cycles spent in the present training step. -/
  stepCycles : Nat := 0
  /-- SAFE cycles a block reset still sends before it trains (R240). -/
  resetCycles : Nat := 0
  cycle : Word := 0
  rtt : BitVec 16 := 0
  nodes : Vector TNode 8 := Vector.replicate 8 {}
  inj : Injector := {}
  /-- The eight downstream frames of the cycle last sent, positions 0 to 7. -/
  sent : List (BitVec 192) := []
  /-- Running disparity at the first slot of that cycle, and the time it started. -/
  rd : Bool := false
  startAt : Nat := 0
  /-- Upstream frames on their way, in order, and the upstream pair's disparity after them. -/
  up : List UpFrame := []
  upRd : Bool := false
  deriving DecidableEq, Repr, Inhabited

/-- What a node puts into its slot of the next upstream cycle (R228, R233): FEEDBACK, IDENT, or CONFIG_ACK with its byte 6. -/
inductive NodeReply where
  | feedback | ident | ack (unsupported : Bool)
  deriving DecidableEq, Repr, Inhabited

/-- A conforming node on a chain, by its place on the cable (R226 to R239). -/
structure Node where
  ident : NodeIdent := {}
  address : Option Nat := none
  forwarding : Bool := false
  originating : Bool := true
  localSafe : Bool := true
  suspended : Bool := false
  /-- After RESTORE the bridge stays at SAFE until the next COMMAND (R237). -/
  waitCommand : Bool := false
  motor : Nat := 0
  safe : Nat := 0
  solMask : Nat := 0
  inMask : Nat := 0
  enc : Nat := 0
  last : Bool := false
  duty : BitVec 48 := 0
  bridge : Nat := 0
  solOn : BitVec 4 := 0
  solLevel : BitVec 64 := 0
  lastSeq : Nat := 0
  ncrc : Nat := 0
  ngap : Nat := 0
  nstale : Nat := 0
  /-- The downstream cycle reaches the node. -/
  reached : Bool := false
  sample : NodeSample := {}
  reply : NodeReply := .feedback
  /-- SEQ of its feedback, and the frame it puts into the present upstream cycle. -/
  seq : Nat := 0
  up : BitVec 192 := 0
  /-- When its last keepalive frame came (R231). -/
  heardAt : Nat := 0
  deriving DecidableEq, Repr, Inhabited

/-! ## Data plane -/

/-- A start-of-scan anchor (R110): its position, the first line that follows it, the direction of its sweep. -/
structure Anchor where
  pos : Int
  first : Nat
  up : Bool
  deriving DecidableEq, Repr, Inhabited

/-- Arming (HPTn_ARM, HPTn_ARMSTAT). -/
structure ArmSt where
  armed : Bool := false
  dryrun : Bool := false
  dryrunReg : Bool := false
  /-- ARM = 0 has been written and the disarm has not completed (R183). -/
  disarming : Bool := false
  discause : Nat := 0
  reason : Nat := 0
  refused : Bool := false
  deriving DecidableEq, Repr, Inhabited

/-- Start of scan (HPTn_SOS*). -/
structure SosSt where
  lines : Nat := 0
  pitch : Word := 0
  ofs : Word := 0
  exp : Word := 0
  expr : Word := 0
  last : Word := 0
  anchors : BitVec 16 := 0
  early : Nat := 0
  ignored : Nat := 0
  /-- The anchors that lines still to fire follow, oldest first; the last is the latest taken. -/
  held : List Anchor := []
  /-- Centre of the window the latest anchor was taken in (R111). -/
  centre : Option Int := none
  /-- The latest expected anchor was missed (R112): the next is taken as a first one. -/
  missed : Bool := false
  /-- Scan mode: between sweeps, waiting for the next sweep's anchor (R108). -/
  between : Bool := false
  /-- Between sweeps: the axis has stood short of the coming window's end (R112). -/
  nearing : Bool := false
  /-- Scan mode: the next sweep is a re-run of an interrupted one, in this direction (R162). -/
  rerun : Option Bool := none
  deriving DecidableEq, Repr, Inhabited

/-- An assembled fire line (R128 to R131): the nozzle codes other than 0 and the lane bits in shift order. -/
structure AsmLine where
  line : Nat
  codes : List (Nat × Nat)
  lanes : List (List Bool)
  deriving DecidableEq, Repr, Inhabited

/-- A pending mask set (R136). -/
structure MaskPend where
  sel : Word
  tag : Nat
  swap : Bool
  deriving DecidableEq, Repr, Inhabited

/-- The print data path of a port (PDP). -/
structure Pdp where
  grey : Bool := false
  order : Bool := false
  cerr : Bool := false
  done : Bool := false
  /-- F, the tag of the last committed fire line; −1 before the first (R121). -/
  f : Int := -1
  /-- The last line whose strobes were issued whole; −1 before the first. -/
  fired : Int := -1
  /-- The last line assembled; −1 before the first. -/
  assembled : Int := -1
  /-- Lines up to this one have had their unplaceable dots counted (R135). -/
  counted : Int := -1
  /-- Valid tags (R120). -/
  valid : List Nat := []
  /-- The END tag, once its line is valid, and its tag while its descriptor runs. -/
  endTag : Option Nat := none
  lowmark : Nat := 0
  masksel : Word := 0
  applytag : Word := 0
  maskact : Word := 0
  mapset : Bool := false
  pend : Option MaskPend := none
  /-- The last applied set's tag, and the set before it, which lower tags use. -/
  switchTag : Nat := 0
  prevSel : Word := 0
  prevMap : Bool := false
  hmbusy : Bool := false
  /-- The line after whose firing HMBUSY clears (R136). -/
  hmEnd : Int := -1
  scany0 : Int := 0
  adv : Nat := 0
  ilace : Nat := 1
  unpl : Nat := 0
  replay : Bool := false
  /-- The replay has failed: the port stays held until it disarms (R126). -/
  replayLost : Bool := false
  /-- Tags that a replay has been asked for (R126, R158). -/
  wanted : List Nat := []
  asm : List AsmLine := []
  /-- The channel that feeds the port in this arming (R122). -/
  channel : Option Nat := none
  deriving DecidableEq, Repr, Inhabited

/-- A pulse of a health test (R138): the strobe that fires the nozzle, its rising instant and width, and the line shifted for it. -/
structure TestPulse where
  nozzle : Nat
  strobe : Nat
  rise : Time48
  width : Nat
  lanes : List (List Bool)
  deriving DecidableEq, Repr, Inhabited

/-- The health test (R138 to R141). -/
structure HTest where
  /-- The latest pulse (R138); none before the first and while the safe state holds the strobes. -/
  pulse : Option TestPulse := none
  /-- Fire instant of the latest cycle. -/
  lastAt : Option Time48 := none
  merge : Bool := true
  op : Nat := 0
  first : Nat := 0
  count : Nat := 0
  rate : Nat := 1000
  ctMax : Nat := 0xFFFF
  ctMin : Nat := 0
  win : Nat := 0
  delay : Nat := 0
  busy : Bool := false
  /-- Nozzles visited, and those found missing. -/
  visited : Nat := 0
  missing : List Nat := []
  done : Bool := false
  aborted : Bool := false
  missingReg : Nat := 0
  /-- Edges the drop-detect sprig accepted during the test (R140). -/
  edges : List Time48 := []
  deriving DecidableEq, Repr, Inhabited

/-- An energy set (R149): E, STEP, BASE and F0 to F7. -/
structure EnergySet where
  e : Nat := 0
  step : Nat := 5
  base : Int := 20
  f : Vector Nat 8 := Vector.replicate 8 0x1000
  deriving DecidableEq, Repr, Inhabited

/-- A committed line (R114): its fire instant, its width in steps, the group its resume begins at. -/
structure Committed where
  line : Nat
  tFire : Time48
  width : Nat
  late : Bool
  fromGroup : Nat
  /-- The latch has fallen (LINE_FIRE). -/
  fired : Bool := false
  /-- Strobes whose drops DROPS holds (R178). -/
  counted : Nat := 0
  deriving DecidableEq, Repr, Inhabited

/-- Firing and energy (HPTn_ENERGY to HPTn_WDSTAT). -/
structure Fire where
  shadow : EnergySet := {}
  pend : Option EnergySet := none
  act : EnergySet := {}
  set : Bool := false
  cerr : Bool := false
  committed : Option Committed := none
  /-- Fire instant of the last committed line (R145). -/
  lastFire : Option Time48 := none
  /-- When the shift of the next line began: the fall of the last latch, or the arming (R143). -/
  shiftAt : Time48 := 0
  width : Nat := 0
  /-- V of the last line as a fraction of volts (R147) and in 10 mV. -/
  vNum : Nat := 0
  vDen : Nat := 1
  vhs10mV : Nat := 0
  vhsCode : Nat := 0
  clampHi : Nat := 0
  clampLo : Nat := 0
  cut : BitVec 4 := 0
  /-- The cap last carried to the seam slot (R153). -/
  capSent : Nat := 100
  vioh : Nat := 0
  deriving DecidableEq, Repr, Inhabited

/-- The seam of a port (HPTn_SEAM*). `state`: 0 none, 1 stopping, 2 backing up, 3 held, 4 running up. -/
structure Seam where
  late : Bool := false
  shut : Bool := false
  supply : Bool := false
  sos : Bool := false
  rev : Bool := false
  unset : Bool := false
  ue : Bool := false
  pause : Bool := false
  state : Nat := 0
  /-- Stop line; −1 when no line has fired. -/
  line : Int := 0
  /-- Fire position of the stop line, 1/64 count. -/
  fpos : Int := 0
  res : Nat := 0
  grp : Nat := 0
  count : Nat := 0
  /-- SEAM_RESUME has been sent. -/
  resumed : Bool := false
  /-- The first line that a cause keeps from firing, where that lies before the stop line's end (R126, R156, R162). -/
  stopFrom : Option Nat := none
  /-- The control side of the handshake (R157, R163): the exchange holds the axis, from SEAM_STOP until the hand-back; its stop line and
  fire position there; whether the port has asked to resume, and whether SEAM_RUN has answered it. -/
  axisHolds : Bool := false
  axisLine : BitVec 32 := 0
  axisFpos : Int := 0
  axisResume : Bool := false
  axisRuns : Bool := false
  deriving DecidableEq, Repr, Inhabited

/-- Head temperature (HPTn_TEMP, HPTn_TSCAL) and levels (R152, R171). -/
structure Temp where
  valid : Bool := false
  tscode : Nat := 0
  t : Int := 0
  tsofs : Nat := 0
  tsgain : Int := 0
  warn : Bool := false
  throt : Bool := false
  /-- The shutdown cause: held while the temperature is invalid too (R171). -/
  shut : Bool := false
  /-- Milliseconds of valid temperatures below the exit level (R171). -/
  validMs : Nat := 0
  /-- The shutdown cause was entered by an invalid temperature. -/
  byInvalid : Bool := false
  deriving DecidableEq, Repr, Inhabited

/-- A usage commit in progress (R180): its cause, the record's SEQ and count, and whether it writes slot B. -/
structure UsageOp where
  cause : Nat
  seq : BitVec 32
  drops : Nat
  slotB : Bool
  record : BitVec 512
  deriving DecidableEq, Repr, Inhabited

/-- A transaction on the sideband (R172): the 7-bit device address, 400 or 100 kHz, the bytes the port sends after it (the head address high
byte first, then what it writes) and how many it reads. -/
structure SbTxn where
  device : Nat
  fast : Bool
  sent : List Byte
  reads : Nat
  deriving DecidableEq, Repr, Inhabited

/-- Head detection, acceptance, usage and sideband (HPTn_HCTRL to HPTn_SBDATA). -/
structure Head where
  detect : Bool := true
  sb400 : Bool := true
  sbaddr : Nat := 0x50
  present : Bool := false
  accepted : Bool := false
  opened : Bool := false
  abusy : Bool := false
  cerr : Bool := false
  authres : Nat := 0
  id : BitVec 64 := 0
  hformat : BitVec 16 := 0
  nozzles : BitVec 16 := 0
  /-- The acceptance in progress has read the head's identity (R175). -/
  identified : Bool := false
  challenge : BitVec 256 := 0
  /-- RESP_READY polls left (R175), and whether 0x01 was read. -/
  pollsLeft : Nat := 0
  ready : Bool := false
  misses : Nat := 0
  keyStore : Option (BitVec 256) := none
  drops : Nat := 0
  dropsHi : BitVec 16 := 0
  useq : BitVec 32 := 0
  /-- The record with the higher SEQ lies in slot B. -/
  newestB : Bool := false
  usage : Option UsageOp := none
  usagePend : Option Nat := none
  /-- A quiescence answer waits for the descent commit (R181). -/
  descentWait : Bool := false
  sbWrite : Bool := false
  sbLen : Nat := 0
  sbDone : Bool := false
  sbErr : Bool := false
  sbAddr : Nat := 0
  sbData : Word := 0
  sbBusy : Bool := false
  /-- WRITE and LEN of the transfer in progress, as GO took them. -/
  sbRun : Bool × Nat := (false, 0)
  /-- The transactions of the sideband's latest step (R172), oldest first. -/
  bus : List SbTxn := []
  deriving DecidableEq, Repr, Inhabited

/-- A head port (PDP and HPT). -/
structure Port where
  arm : ArmSt := {}
  sos : SosSt := {}
  pdp : Pdp := {}
  test : HTest := {}
  fire : Fire := {}
  seam : Seam := {}
  temp : Temp := {}
  head : Head := {}
  deriving DecidableEq, Repr, Inhabited

/-- A descriptor (R264). -/
structure Desc where
  ctrl : Word
  length : Nat
  src : Nat
  dst : Nat
  tag : Nat
  user : Word
  deriving DecidableEq, Repr, Inhabited

/-- A completion record owed (R266, R267). `lastTag`: of a print descriptor. -/
structure Owed where
  desc : Desc
  index : Nat
  /-- The descriptor has ended; the entry of the one in progress has not. -/
  ended : Bool := true
  status : Nat := 0
  late : Bool := false
  replayed : Bool := false
  mismatch : Bool := false
  withdrew : Bool := false
  count : Nat := 0
  aux : Word := 0
  /-- Every line or byte is written and the record's other conditions hold. -/
  complete : Bool := false
  print : Bool := false
  lastTag : Nat := 0
  deriving DecidableEq, Repr, Inhabited

/-- DMA channel states (DMA_CHn_STAT.STATE). -/
inductive ChanState where
  | idle | running | stopping | stopped | halted
  deriving DecidableEq, Repr, Inhabited

/-- A DMA channel. -/
structure Chan where
  loc : Bool := false
  vector : Nat := 0
  irqp : Bool := false
  cerr : Bool := false
  state : ChanState := .idle
  lastStatus : Nat := 0
  dbase : BitVec 64 := 0
  dsize : Nat := 0
  dhead : Nat := 0
  dtail : Nat := 0
  rbase : BitVec 64 := 0
  rsize : Nat := 0
  rhead : Nat := 0
  rtail : Nat := 0
  disc : Nat := 0
  /-- PHASE bit of the present pass round the completion ring (R266). -/
  phase : Bool := true
  /-- The descriptor in progress. -/
  cur : Option Desc := none
  /-- Bytes of it transferred, and the sizes of its bursts in flight, oldest first (R269). -/
  done : Nat := 0
  bursts : List Nat := []
  /-- Bytes written, and the STATUS a failed burst has given it. -/
  written : Nat := 0
  fail : Nat := 0
  mismatches : Nat := 0
  firstMismatch : Option Nat := none
  owed : List Owed := []
  /-- Replay log: print descriptors, newest last, at most 64 (R126). -/
  log : List Desc := []
  /-- The last print descriptor that completed (R265). -/
  lastPrint : Option Desc := none
  /-- 0x21 raised for the record that cannot be posted. -/
  fullRaised : Bool := false
  deriving DecidableEq, Repr, Inhabited

/-- A DMA engine (R268). -/
structure Engine where
  granted : Option Nat := none
  lastServed : Nat := 15
  deriving DecidableEq, Repr, Inhabited

/-- The DMA engines; `hostMem` is the host's memory as the Plenu reads and writes it. -/
structure Dma where
  chans : Vector Chan 64 := Vector.replicate 64 {}
  engines : Vector Engine 4 := Vector.replicate 4 {}
  hostMem : List Host.Cell := []
  deriving DecidableEq, Repr, Inhabited

/-- Power states of a line-store bank (R249). -/
inductive BankState where
  | on | retained | off
  deriving DecidableEq, Repr, Inhabited

/-- A remap entry (R256): the memory, the byte offset of the word, its data, and the inverted bits of its own per-byte code words, by
byte lane, unlisted lanes holding none. -/
structure Remap where
  memsel : Nat
  offset : Nat
  data : BitVec 64
  upsets : List (Nat × BitVec 13) := []
  deriving DecidableEq, Repr, Inhabited

/-- A repeat-tracker entry (R255), kept in the order last corrected, latest last. -/
structure Tracked where
  offset : Nat
  count : Nat
  deriving DecidableEq, Repr, Inhabited

/-- MEM_SCRUB and the scrub in progress (R257 to R259). -/
structure Scrub where
  busy : Bool := false
  done : Bool := false
  aborted : Bool := false
  cerr : Bool := false
  memsel : Nat := 0
  addr : Nat := 0
  len : Nat := 0
  /-- ABORT has been written. -/
  abort : Bool := false
  /-- The controller works on the range GO took; it has been told to end after the word in progress. -/
  active : Bool := false
  halt : Bool := false
  /-- Byte offset of the next word to read and the end of the range. -/
  next : Nat := 0
  limit : Nat := 0
  /-- A corrected word between its read and its write-back (R258): the memory, the word's byte offset, its corrected bytes. -/
  back : Option (Nat × Nat × List Byte) := none
  /-- The command has raised 0x11. -/
  ueRaised : Bool := false
  /-- What the controller has found so far, what it has reported to the MEM block, and what MEM_SUMMARY shows. -/
  run : ScrubSum := {}
  result : Option ScrubSum := none
  sum : ScrubSum := {}
  deriving DecidableEq, Repr, Inhabited

/-- The transparent test (R260). -/
structure TTest where
  en : Bool := false
  mask : BitVec 9 := 0
  interval : Nat := 100
  passes : BitVec 16 := 0
  regions : BitVec 16 := 0
  resMem : Nat := 0
  resAddr : Nat := 0
  curMem : Nat := 0
  curRegion : Nat := 0
  paused : Bool := false
  /-- The region under test, memory and number, with the bank cycles left until it is restored and the byte offset of its last failing
  word. -/
  under : Option (Nat × Nat) := none
  left : Nat := 0
  failed : Option Nat := none
  /-- A step sent to a controller of another plane has not yet been reported (R245). -/
  asked : Bool := false
  deriving DecidableEq, Repr, Inhabited

/-- The protected memories and the MEM block. -/
structure MemSys where
  lineStore : Mem := {}
  capture : Vector Mem 4 := Vector.replicate 4 {}
  keepMgmt : Mem := {}
  keepDma : Mem := {}
  staged : Mem := {}
  active : Mem := {}
  /-- MEM_BANKPWR. -/
  on : BitVec 16 := 0xFFFF
  ret : BitVec 16 := 0
  /-- The banks are off until the boot order powers them (R43, R348). -/
  banks : Vector BankState 16 := Vector.replicate 16 .off
  ready : BitVec 16 := 0
  cerr : Bool := false
  uwrep : Bool := false
  scrub : Scrub := {}
  tt : TTest := {}
  /-- The remap table, one home with its mirror in keep RAM (R256). -/
  remap : List Remap := []
  trackers : Vector (List Tracked) 9 := Vector.replicate 9 []
  /-- Keep-RAM usage entries per port: HEAD_ID, DROPS, USEQ (R178). -/
  usage : Vector (Option (BitVec 64 × Nat × BitVec 32)) 4 := Vector.replicate 4 none
  deriving DecidableEq, Repr, Inhabited

/-- A PCIe request held at L3 until L0, or behind one that is held (R40, R36). -/
inductive Held where
  | write (addr : BitVec 32) (bytes : List Byte)
  | read (addr : BitVec 32) (len : Nat)
  | window (offset : BitVec 24) (acc : WinAccess)
  | config (reg : ConfigReg) (write : Option Word)
  deriving DecidableEq, Repr, Inhabited

/-- PCIe link states (R278, R339). -/
inductive PcieLink where
  | down | l0 | l1 | l23
  deriving DecidableEq, Repr, Inhabited

/-- An MSI-X table entry (R338). -/
structure MsixEntry where
  addrLo : Word := 0
  addrHi : Word := 0
  data : Word := 0
  mask : Word := 1
  deriving DecidableEq, Repr, Inhabited

/-- JTAG instructions (R349). -/
inductive TapInstr where
  | bypass | idcode | samplePreload | extest | debug
  deriving DecidableEq, Repr, Inhabited

/-- What the management I2C target holds SCL low for (R344). -/
inductive I2cHold where
  | none | write (offset : BitVec 24) (bytes : List Byte) | read (offset : BitVec 24) (len : Nat)
  deriving DecidableEq, Repr, Inhabited

/-- The host interfaces. `rdata`: the data word or bytes the last read command returned. -/
structure HostIf where
  rdata : List Word := []
  winData : List Byte := []
  /-- The last window read's completion was poisoned (R254). -/
  poison : Bool := false
  spiStat : BitVec 8 := 0
  spiStatus : BitVec 8 := 0
  spiOut : List Byte := []
  i2cOut : List Byte := []
  i2cAck : Bool := true
  i2cHold : I2cHold := .none
  held : List Held := []
  link : PcieLink := .down
  d3hot : Bool := false
  command : BitVec 16 := 0
  bar0 : Word := 0
  msixEn : Bool := false
  msixMask : Bool := false
  msix : Vector MsixEntry 32 := Vector.replicate 32 {}
  pba : Word := 0
  /-- MSI-X messages sent, per vector. -/
  sent : Vector Nat 32 := Vector.replicate 32 0
  tap : TapInstr := .idcode
  tapReset : Bool := true
  tapOut : List Bool := []
  boundary : List Bool := []
  deriving DecidableEq, Repr, Inhabited

/-- What the board gives the Plenu, in mV, and the clocks present at its balls. -/
structure Env where
  vin : Nat := 3300
  viof : Vector Nat 4 := Vector.replicate 4 3300
  vioh : Nat := 3300
  vpp : Nat := 0
  refck : Bool := false
  /-- Words, by memory and byte offset, whose cells do not keep the corrected bits that a scrub writes back (R257): a condition of the
  part that no command changes (log entry 145). -/
  weak : List (Nat × Nat) := []
  deriving DecidableEq, Repr, Inhabited

/-- The whole machine. -/
structure State where
  sys : Sys := {}
  ladder : Ladder := {}
  quiesce : Quiesce := {}
  times : Times := {}
  links : Links := {}
  flt : Flt := {}
  otp : Otp := {}
  thm : Thm := {}
  cal : Cal := {}
  top : Top := {}
  fab : Fab := {}
  axes : Vector Axis 8 := Vector.replicate 8 {}
  cores : Vector Core 4 := Vector.replicate 4 {}
  tlks : Vector Tlk 8 := Vector.replicate 8 {}
  nodes : Vector (Vector Node 8) 8 := Vector.replicate 8 (Vector.replicate 8 {})
  ports : Vector Port 4 := Vector.replicate 4 {}
  dma : Dma := {}
  mem : MemSys := {}
  host : HostIf := {}
  env : Env := {}
  free : Nat := 0
  /-- The waiting commands, first in first out. -/
  pending : List Instr := []
  deriving DecidableEq, Repr, Inhabited

/-- A word both copies of which read the same under both references: no bit of it is marginal or weak. -/
def OtpWord.solid (w : Word) : OtpWord := ⟨w, w, w, w⟩

/-- The OTP array of State.reset (DESIGN CHOICE, log entry 2): a PLN-448 whose factory region is sealed (R328, R329: words 0
to 5, the CRC-32 of their bytes in word 6, LOCK in word 7) and every other word blank. -/
def Otp.factoryArray : Vector OtpWord 128 :=
  ((Vector.replicate 128 (OtpWord.solid 0)).set 1 (OtpWord.solid 0x0000FB04) |>.set 6 (OtpWord.solid 0xa504c333)).set 7
    (OtpWord.solid 1)

/-- The machine right after a Power reset asserts (R346, R347): every register at its reset value, no image, an empty queue. -/
def State.reset : State := { otp := { array := Otp.factoryArray } }

end Sys2Proof.Machine
end

