-- ==== Sys2Proof/Machine/Memory.lean ====
section
/-!
DEFINITION. Protected memories: sparse lists in canonical form, the per-byte code (R246, R247), written bits (R253), bank
power (R249) and remap entries (R256).
-/

namespace Sys2Proof.Machine

/-! ## Sparse lists in rising key order, listing no zero -/

/-- Value at a key; an unlisted key holds 0. -/
def look {w : Nat} : List (Nat × BitVec w) → Nat → BitVec w
  | [], _ => 0
  | (k, v) :: rest, a => if k = a then v else look rest a

/-- The list with `v` at key `a`. -/
def place {w : Nat} : List (Nat × BitVec w) → Nat → BitVec w → List (Nat × BitVec w)
  | [], a, v => if v = 0 then [] else [(a, v)]
  | (k, x) :: rest, a, v =>
    if a < k then (if v = 0 then (k, x) :: rest else (a, v) :: (k, x) :: rest)
    else if a = k then (if v = 0 then rest else (a, v) :: rest)
    else (k, x) :: place rest a v

/-- The list without the keys from `lo` to `hi − 1`. -/
def clearRange {w : Nat} (l : List (Nat × BitVec w)) (lo hi : Nat) : List (Nat × BitVec w) :=
  l.filter fun c => c.1 < lo || hi ≤ c.1

/-- Keys strictly rising and no value 0. -/
def canonical {w : Nat} : List (Nat × BitVec w) → Bool
  | [] => true
  | (_, v) :: [] => v != 0
  | (k, v) :: (k', v') :: rest => v != 0 && k < k' && canonical ((k', v') :: rest)

/-- A rising list of numbers with `a` in it. -/
def insertNat : List Nat → Nat → List Nat
  | [], a => [a]
  | k :: rest, a => if a < k then a :: k :: rest else if a = k then k :: rest else k :: insertNat rest a

def rising : List Nat → Bool
  | [] => true
  | _ :: [] => true
  | a :: b :: rest => a < b && rising (b :: rest)

/-! ## The code of a byte (R246, R247) -/

/-- The stored code word of a data byte: bits 0 to 11 are positions 1 to 12 (c0, c1, d0, c2, d1, d2, d3, c3, d4 to d7), bit
12 is c4. -/
def eccEncode (d : Byte) : BitVec 13 :=
  let b (i : Nat) := d.getLsbD i
  let c0 := b 0 ^^ b 1 ^^ b 3 ^^ b 4 ^^ b 6
  let c1 := b 0 ^^ b 2 ^^ b 3 ^^ b 5 ^^ b 6
  let c2 := b 1 ^^ b 2 ^^ b 3 ^^ b 7
  let c3 := b 4 ^^ b 5 ^^ b 6 ^^ b 7
  let c4 := (b 0 ^^ b 1 ^^ b 2 ^^ b 3 ^^ b 4 ^^ b 5 ^^ b 6 ^^ b 7) ^^ c0 ^^ c1 ^^ c2 ^^ c3
  BitVec.ofBoolListLE [c0, c1, b 0, c2, b 1, b 2, b 3, c3, b 4, b 5, b 6, b 7, c4]

/-- The data byte a code word stores. -/
def eccData (w : BitVec 13) : Byte :=
  BitVec.ofBoolListLE [w.getLsbD 2, w.getLsbD 4, w.getLsbD 5, w.getLsbD 6, w.getLsbD 8, w.getLsbD 9, w.getLsbD 10, w.getLsbD 11]

/-- The check bits c0 to c4 of a code word, c0 lowest. -/
def eccCheck (w : BitVec 13) : BitVec 5 :=
  BitVec.ofBoolListLE [w.getLsbD 0, w.getLsbD 1, w.getLsbD 3, w.getLsbD 7, w.getLsbD 12]

/-- What a checked read finds in a byte. -/
inductive EccResult where
  | clean | corrected | uncorrectable
  deriving DecidableEq, Repr

/-- Syndrome s of R247: recomputed c0 to c3 exclusive-ORed with the stored ones. -/
def eccSyndrome (w : BitVec 13) : Nat :=
  ((eccCheck (eccEncode (eccData w))).setWidth 4 ^^^ (eccCheck w).setWidth 4).toNat

/-- Parity q of all 13 stored bits. -/
def eccParity (w : BitVec 13) : Bool := (List.range 13).foldl (fun p i => p ^^ w.getLsbD i) false

/-- A checked read of a code word (R247): the data delivered and what was found. -/
def eccRead (w : BitVec 13) : Byte × EccResult :=
  let s := eccSyndrome w
  if eccParity w then
    if s = 0 then (eccData w, .corrected)
    else if s ≤ 12 then (eccData (w ^^^ (1#13 <<< (s - 1))), .corrected)
    else (eccData w, .uncorrectable)
  else if s = 0 then (eccData w, .clean)
  else (eccData w, .uncorrectable)

/-! ## One memory -/

/-- A written block is checked; a never-written block reads 0x00 unchecked (R253). -/
def Mem.readByte (m : Mem) (a : Nat) : Byte × EccResult :=
  if m.written.contains (a / 256) then eccRead (eccEncode (look m.cells a) ^^^ look m.upsets a) else (0, .clean)

/-- A byte write: its own lane alone, with a valid code (R252); the first write to a block sets its written bit and gives the
rest of the block zero bytes with valid codes (R253). -/
def Mem.writeByte (m : Mem) (a : Nat) (b : Byte) : Mem :=
  let blk := a / 256
  let m1 : Mem :=
    if m.written.contains blk then m
    else { cells := clearRange m.cells (blk * 256) (blk * 256 + 256)
           upsets := clearRange m.upsets (blk * 256) (blk * 256 + 256)
           written := insertNat m.written blk }
  { m1 with cells := place m1.cells a b, upsets := place m1.upsets a 0 }

/-- Write consecutive bytes. -/
def Mem.writeBytes (m : Mem) : Nat → List Byte → Mem
  | _, [] => m
  | a, b :: rest => (m.writeByte a b).writeBytes (a + 1) rest

/-- The bytes as they are delivered, without regard to errors. -/
def Mem.bytes (m : Mem) (a : Nat) : Nat → List Byte
  | 0 => []
  | n + 1 => (m.readByte a).1 :: m.bytes (a + 1) n

/-- The memory with the bytes from `lo` to `hi − 1` and their written bits lost. -/
def Mem.lose (m : Mem) (lo hi : Nat) : Mem :=
  { cells := clearRange m.cells lo hi
    upsets := clearRange m.upsets lo hi
    written := m.written.filter fun b => b * 256 + 256 ≤ lo || hi ≤ b * 256 }

/-- The memory filled with 0x00 from 0 to `size − 1`: every block written, every code valid (R45). -/
def Mem.zeroed (size : Nat) : Mem := { written := List.range (size / 256) }

/-- The canonical form of a memory. -/
def Mem.wf (m : Mem) : Bool := canonical m.cells && canonical m.upsets && rising m.written

/-! ## The memory system (R245) -/

/-- A bank of the line store holds 512 KiB (R2). -/
def bankSize : Nat := 0x80000

/-- Memory of a MEMSEL code (R245). -/
def MemSys.get (ms : MemSys) (memsel : Nat) : Mem :=
  match memsel with
  | 0 => ms.lineStore
  | 1 => ms.capture[0]
  | 2 => ms.capture[1]
  | 3 => ms.capture[2]
  | 4 => ms.capture[3]
  | 5 => ms.keepMgmt
  | 6 => ms.keepDma
  | 7 => ms.staged
  | _ => ms.active

def MemSys.set (ms : MemSys) (memsel : Nat) (m : Mem) : MemSys :=
  match memsel with
  | 0 => { ms with lineStore := m }
  | 1 => { ms with capture := ms.capture.set 0 m }
  | 2 => { ms with capture := ms.capture.set 1 m }
  | 3 => { ms with capture := ms.capture.set 2 m }
  | 4 => { ms with capture := ms.capture.set 3 m }
  | 5 => { ms with keepMgmt := m }
  | 6 => { ms with keepDma := m }
  | 7 => { ms with staged := m }
  | _ => { ms with active := m }

/-- Every memory is in canonical form. -/
def MemSys.wf (ms : MemSys) : Bool :=
  ms.lineStore.wf && ms.capture[0].wf && ms.capture[1].wf && ms.capture[2].wf && ms.capture[3].wf && ms.keepMgmt.wf &&
    ms.keepDma.wf && ms.staged.wf && ms.active.wf

/-- Banks of the line store on a variant (R2). -/
def Variant.banks : Variant → Nat
  | .p448 => 16
  | .p224 => 8
  | .p112 => 4

def Variant.ports : Variant → Nat
  | .p448 => 4
  | .p224 => 2
  | .p112 => 1

def Variant.cores : Variant → Nat
  | .p448 => 4
  | .p224 => 2
  | .p112 => 1

def Variant.tlks : Variant → Nat
  | .p448 => 8
  | .p224 => 4
  | .p112 => 2

def Variant.sprigs : Variant → Nat
  | .p448 => 96
  | .p224 => 64
  | .p112 => 32

def Variant.adcs : Variant → Nat
  | .p448 => 16
  | .p224 => 12
  | .p112 => 8

def Variant.engines : Variant → Nat
  | .p448 => 4
  | .p224 => 2
  | .p112 => 1

/-- The PCIe endpoint is on PLN-448 and PLN-224 only (R2). -/
def Variant.pcie : Variant → Bool
  | .p112 => false
  | _ => true

/-- Size in bytes of a memory on a variant; 0 for an absent one (R245, R3). -/
def memSize (v : Variant) (memsel : Nat) : Nat :=
  match memsel with
  | 0 => v.banks * bankSize
  | 1 | 2 | 3 | 4 => if memsel ≤ v.cores then 0x10000 else 0
  | 5 | 6 => 0x2000
  | 7 | 8 => 0x10000
  | _ => 0

/-- The bank of a line-store offset is on. A read of a bank that is off behaves as one of a never-written block, and a write
to it is discarded (R253). -/
def MemSys.reachable (ms : MemSys) (memsel a : Nat) : Bool :=
  if memsel = 0 then elem? ms.banks (a / bankSize) == some BankState.on else true

/-- The remap entry that serves a word (R256). -/
def MemSys.remapped (ms : MemSys) (memsel a : Nat) : Option Remap :=
  ms.remap.find? fun r => r.memsel = memsel && r.offset = a / 8 * 8

/-- Whether a read of the byte is checked: its block is written and its bank on (R253). -/
def MemSys.isWritten (ms : MemSys) (memsel a : Nat) : Bool :=
  ms.reachable memsel a && (ms.get memsel).written.contains (a / 256)

/-- A checked read of a byte of a remap entry, which has a per-byte code of its own (R256). -/
def Remap.readByte (r : Remap) (a : Nat) : Byte × EccResult :=
  eccRead (eccEncode (BitVec.ofNat 8 (bitsOf r.data.toNat (8 * (a % 8)) 8)) ^^^ look r.upsets (a % 8))

/-- A checked read of one byte through bank power, written bits and remap entries. -/
def MemSys.readByte (ms : MemSys) (memsel a : Nat) : Byte × EccResult :=
  if ms.isWritten memsel a then
    match ms.remapped memsel a with
    | some r => r.readByte a
    | none => (ms.get memsel).readByte a
  else (0, .clean)

/-- The entry with one byte replaced, its code valid. -/
def Remap.write (r : Remap) (a : Nat) (b : Byte) : Remap :=
  let keep := r.data &&& ~~~(0xFF#64 <<< (8 * (a % 8)))
  { r with data := keep ||| (b.setWidth 64 <<< (8 * (a % 8))), upsets := place r.upsets (a % 8) 0 }

/-- A remap entry where the first write to its word's block gives the block zero bytes (R253). -/
def Remap.fresh (r : Remap) (memsel a : Nat) (first : Bool) : Remap :=
  if first && r.memsel = memsel && r.offset / 256 = a / 256 then { r with data := 0, upsets := [] } else r

/-- A write to a word between a scrub's read and its write-back drops the write-back (R258). -/
def Scrub.overtaken (memsel a : Nat) (x : Scrub) : Scrub :=
  { x with back := x.back.filter fun b => !(b.1 = memsel && b.2.1 = a / 8 * 8) }

/-- A byte write through bank power and remap entries. -/
def MemSys.writeByte (ms : MemSys) (memsel a : Nat) (b : Byte) : MemSys :=
  if ms.reachable memsel a then
    let first := !(ms.get memsel).written.contains (a / 256)
    let ms1 := ms.set memsel ((ms.get memsel).writeByte a b)
    { ms1 with scrub := ms1.scrub.overtaken memsel a, remap := ms1.remap.map fun r =>
        if r.memsel = memsel && r.offset = a / 8 * 8 then (r.fresh memsel a first).write a b else r.fresh memsel a first }
  else ms

def MemSys.writeBytes (ms : MemSys) (memsel : Nat) : Nat → List Byte → MemSys
  | _, [] => ms
  | a, b :: rest => (ms.writeByte memsel a b).writeBytes memsel (a + 1) rest

/-- What a checked read of several bytes gives: the bytes, and the word offsets corrected, uncorrectable, and never written or in an off
bank. -/
structure ReadResult where
  bytes : List Byte := []
  corrected : List Nat := []
  uncorrectable : List Nat := []
  unwritten : List Nat := []
  deriving DecidableEq, Repr

/-- Add the byte at `a` in front. -/
def ReadResult.cons (r : ReadResult) (a : Nat) (b : Byte × EccResult) (written : Bool) : ReadResult :=
  let w := a / 8 * 8
  { bytes := b.1 :: r.bytes
    corrected := if b.2 = .corrected && !r.corrected.contains w then w :: r.corrected else r.corrected
    uncorrectable := if b.2 = .uncorrectable && !r.uncorrectable.contains w then w :: r.uncorrectable else r.uncorrectable
    unwritten := if !written && !r.unwritten.contains w then w :: r.unwritten else r.unwritten }

/-- A checked read of `n` bytes from `a`. -/
def MemSys.read (ms : MemSys) (memsel a : Nat) : Nat → ReadResult
  | 0 => {}
  | n + 1 => (ms.read memsel (a + 1) n).cons a (ms.readByte memsel a) (ms.isWritten memsel a)

/-- The word at an offset as delivered, little-endian. -/
def MemSys.word64 (ms : MemSys) (memsel a : Nat) : BitVec 64 := BitVec.ofNat 64 (leNat (ms.read memsel (a / 8 * 8) 8).bytes)

/-- A 32-bit word as delivered. -/
def MemSys.word32 (ms : MemSys) (memsel a : Nat) : Word := BitVec.ofNat 32 (leNat (ms.read memsel a 4).bytes)

/-! ## Host memory -/

/-- Bytes of the host's memory. -/
def hostBytes (l : List Host.Cell) (a : Nat) : Nat → List Byte
  | 0 => []
  | n + 1 => look l a :: hostBytes l (a + 1) n

def hostWrite (l : List Host.Cell) : Nat → List Byte → List Host.Cell
  | _, [] => l
  | a, b :: rest => hostWrite (place l a b) (a + 1) rest

end Sys2Proof.Machine
end

