-- ==== Sys2Proof/Machine/Ops.lean ====
section
/-!
DEFINITION. The named operations every meaning is built from: one update per part of the state, the lookup of what the image
in force gives an instance, presence of units (R3), the outcome of a command, and signals to the host.
-/

namespace Sys2Proof.Machine

/-- The outcome of a command. -/
abbrev Res := Host.Outcome State Fault Refusal

/-- The calibrated code of a raw one on a scale of `full` codes (R305, R308). -/
def CalCh.code (c : CalCh) (full raw : Nat) : Nat :=
  (clampInt 0 full (divNearest (((raw : Int) - c.ofs) * c.gain) 32768)).toNat

/-- A domain of the clock plan, by its bit of DOMAIN_EN (R51): 0 LOOP, 1 FAB, 6 ADC. -/
def Image.domain (i : Image) (bit : Nat) : Bool := i.domains.testBit bit

/-- What of the fabric is the board's and no state of the part: the drives and levels of the pins. -/
def Fab.outside (b : Fab) : Fab := { pads := b.pads.map fun p => { p with since := 0 } }

namespace State

def onSys (f : Sys → Sys) (s : State) : State := { s with sys := f s.sys }
def onLadder (f : Ladder → Ladder) (s : State) : State := { s with ladder := f s.ladder }
def onQuiesce (f : Quiesce → Quiesce) (s : State) : State := { s with quiesce := f s.quiesce }
def onTimes (f : Times → Times) (s : State) : State := { s with times := f s.times }
def onLinks (f : Links → Links) (s : State) : State := { s with links := f s.links }
def onFlt (f : Flt → Flt) (s : State) : State := { s with flt := f s.flt }
def onOtp (f : Otp → Otp) (s : State) : State := { s with otp := f s.otp }
def onThm (f : Thm → Thm) (s : State) : State := { s with thm := f s.thm }
def onCal (f : Cal → Cal) (s : State) : State := { s with cal := f s.cal }
def onTop (f : Top → Top) (s : State) : State := { s with top := f s.top }
def onFab (f : Fab → Fab) (s : State) : State := { s with fab := f s.fab }
def onAxes (f : Vector Axis 8 → Vector Axis 8) (s : State) : State := { s with axes := f s.axes }
def onCores (f : Vector Core 4 → Vector Core 4) (s : State) : State := { s with cores := f s.cores }
def onTlks (f : Vector Tlk 8 → Vector Tlk 8) (s : State) : State := { s with tlks := f s.tlks }
def onNodes (f : Vector (Vector Node 8) 8 → Vector (Vector Node 8) 8) (s : State) : State := { s with nodes := f s.nodes }
def onPorts (f : Vector Port 4 → Vector Port 4) (s : State) : State := { s with ports := f s.ports }
def onDma (f : Dma → Dma) (s : State) : State := { s with dma := f s.dma }
def onMem (f : MemSys → MemSys) (s : State) : State := { s with mem := f s.mem }
def onHost (f : HostIf → HostIf) (s : State) : State := { s with host := f s.host }
def onEnv (f : Env → Env) (s : State) : State := { s with env := f s.env }
/-- One free value has been taken. -/
def bumpFree (s : State) : State := { s with free := s.free + 1 }

def onSprig (n : Fin 96) (f : Sprig → Sprig) (s : State) : State :=
  s.onFab fun b => { b with sprigs := upd b.sprigs n f }
def onAxis (n : Fin 8) (f : Axis → Axis) (s : State) : State := s.onAxes fun v => upd v n f
def onCore (c : Fin 4) (f : Core → Core) (s : State) : State := s.onCores fun v => upd v c f
def onSlot (c : Fin 4) (i : Fin 24) (f : Slot → Slot) (s : State) : State :=
  s.onCore c fun k => { k with slots := upd k.slots i f }
def onTlk (n : Fin 8) (f : Tlk → Tlk) (s : State) : State := s.onTlks fun v => upd v n f
def onTNode (n p : Fin 8) (f : TNode → TNode) (s : State) : State :=
  s.onTlk n fun t => { t with nodes := upd t.nodes p f }
def onNode (n p : Fin 8) (f : Node → Node) (s : State) : State := s.onNodes fun v => upd v n fun w => upd w p f
def onPort (p : Fin 4) (f : Port → Port) (s : State) : State := s.onPorts fun v => upd v p f
def onChan (c : Fin 64) (f : Chan → Chan) (s : State) : State := s.onDma fun d => { d with chans := upd d.chans c f }
def onEngine (e : Fin 4) (f : Engine → Engine) (s : State) : State :=
  s.onDma fun d => { d with engines := upd d.engines e f }

def sprig (s : State) (n : Fin 96) : Sprig := s.fab.sprigs[n.val]
def axis (s : State) (n : Fin 8) : Axis := s.axes[n.val]
def core (s : State) (c : Fin 4) : Core := s.cores[c.val]
def slot (s : State) (c : Fin 4) (i : Fin 24) : Slot := (s.core c).slots[i.val]
def tlk (s : State) (n : Fin 8) : Tlk := s.tlks[n.val]
def tnode (s : State) (n p : Fin 8) : TNode := (s.tlk n).nodes[p.val]
def node (s : State) (n p : Fin 8) : Node := s.nodes[n.val][p.val]
def port (s : State) (p : Fin 4) : Port := s.ports[p.val]
def chan (s : State) (c : Fin 64) : Chan := s.dma.chans[c.val]
def engine (s : State) (e : Fin 4) : Engine := s.dma.engines[e.val]

/-! ## The structure in force -/

/-- The profile the active image gives a port (R169). -/
def profile (s : State) (p : Fin 4) : Option Profile := s.top.image.profiles.find? fun r => r.port = p.val

/-- The profile's values, or those of an empty profile where there is none. -/
def prof (s : State) (p : Fin 4) : Profile := (s.profile p).getD {}

/-- The axis of a port. -/
def portAxis (s : State) (p : Fin 4) : Option (Fin 8) := (s.profile p).bind fun r => fin? 8 r.axis

/-- Ports that name an axis. -/
def axisPorts (s : State) (n : Fin 8) : List (Fin 4) :=
  [0, 1, 2, 3].filter fun p : Fin 4 => (s.profile p).any fun r => r.axis = n.val

/-- A bound port of the axis is armed (R99). -/
def axisArmed (s : State) (n : Fin 8) : Bool := (s.axisPorts n).any fun p => (s.port p).arm.armed

/-- The SEAM slot of an axis: the slot with FLAGS bit 2 whose input is the axis (R57, R65), wherever migration has put it. -/
def seamSlot (s : State) (n : Fin 8) : Option (Fin 4 × Fin 24) :=
  ((List.finRange 4).flatMap fun c => (List.finRange 24).map fun i => (c, i)).find? fun x =>
    let sl := s.slot x.1 x.2
    sl.state != .free && sl.cfg.flags.testBit 2 && sl.cfg.inKind = 1 && sl.cfg.inIndex = n.val

/-- The start-of-scan, drop-detect or quadrature sprig of a mode bound to an instance (R53). -/
def sprigBound (s : State) (mode p0 : Nat) : Option (Fin 96) :=
  (List.finRange 96).find? fun n => (s.sprig n).mode = mode && (s.sprig n).p0 = p0

/-- The FAB domain starts: fabric time counts from zero (R74), and the instants the pads and tach gates hold with it. -/
def startFab (s : State) : State :=
  (s.onTimes fun t => { t with fab := 0 }).onFab fun b =>
    { b with pads := b.pads.map fun p => { p with since := 0 }
             sprigs := b.sprigs.map fun g => { g with tach := { g.tach with start := 0 } } }

/-- COUNT of an axis is the count of the sprig that feeds it (R98). -/
def axisCount (s : State) (n : Fin 8) : BitVec 32 :=
  match fin? 96 (s.axis n).sprig with
  | some i => (s.sprig i).quad.count
  | none => 0

/-- The four port numbers. -/
def portNumbers : List (Fin 4) := [0, 1, 2, 3]

/-! ## Presence (R3) -/

def hasPort (s : State) (p : Fin 4) : Bool := p.val < s.sys.variant.ports
def hasCore (s : State) (c : Fin 4) : Bool := c.val < s.sys.variant.cores
def hasTlk (s : State) (n : Fin 8) : Bool := n.val < s.sys.variant.tlks
def hasSprig (s : State) (n : Fin 96) : Bool := n.val < s.sys.variant.sprigs
def hasEngine (s : State) (e : Nat) : Bool := e < s.sys.variant.engines
def hasChan (s : State) (c : Fin 64) : Bool := s.hasEngine (c.val / 16)

/-- Some present port is armed (with a live arming). -/
def anyArmed (s : State) : Bool := (List.finRange 4).any fun p => (s.port p).arm.armed

/-- The part runs, so that its bridge, planes and ladder act. -/
def running (s : State) : Bool := s.sys.phase == .running

/-- The control and data planes are clocked: rungs L0 and L1, no clock lost (R276, R285). -/
def clocked (s : State) : Bool := s.running && s.ladder.rung ≤ 1 && !s.sys.fastLost

/-- The ADC domain runs (R51). -/
def adcRuns (s : State) : Bool := s.clocked && s.top.image.domain 6

/-- The ADC channels deliver samples: their domain runs and the start-up calibration is complete (R306). -/
def adcReady (s : State) : Bool := s.adcRuns && s.cal.started

/-- The newest calibrated code of an ADC channel (R305): the spare's while it stands in (R306). -/
def adcCode (c : Nat) (s : State) : Nat :=
  let k := if (elem? s.cal.chans c).any (·.subst) then 16 else c
  ((elem? s.cal.chans k).map fun x => x.code 65535 ((elem? s.cal.raw k).getD 0).toNat).getD 0

/-- The management plane is clocked by MGMT: L0 to L3 (R277). -/
def mgmtClocked (s : State) : Bool := s.sys.phase != .inReset && s.ladder.rung ≤ 3

/-- Both planes have confirmed the exchange in progress (R26). -/
def bothRecorded (s : State) : Bool := s.quiesce.control == .recorded && s.quiesce.data == .recorded

/-- The hold of an activation both planes have agreed to: outputs at their old safe levels, input sprigs stopped (R66). -/
def swapHold (s : State) : Bool := s.top.state == .activating && s.quiesce.purpose == .activation && s.bothRecorded

/-- The outputs are held at their safe levels: the safe state (R95), or the hold of an activation (R66). -/
def outputsHeld (s : State) : Bool := s.flt.safe || s.swapHold

/-- The word a read command returns. -/
def ret (w : Word) (s : State) : State := s.onHost fun h => { h with rdata := [w] }

/-! ## Signals to the host -/

/-- An MSI-X message of a vector (R315, R338): with MSI-X enabled it is sent, or marked pending while masked; vector 0 ignores
its mask bit and the function mask. -/
def sendMsi (v : Nat) (s : State) : State :=
  s.onHost fun h =>
    if h.msixEn then
      let masked := v != 0 && (h.msixMask || (elem? h.msix v).any fun e => e.mask.getLsbD 0)
      if masked then { h with pba := h.pba ||| BitVec.ofNat 32 (2 ^ (v % 32)) }
      else { h with sent := updNat h.sent v (· + 1) }
    else h

end State

/-- The command has no shape the spec gives it. -/
def refuseIllFormed : Res := .refused .illFormed

end Sys2Proof.Machine
end

