-- ==== Sys2Proof/Machine/Geometry.lean ====
section
/-!
DEFINITION. Quantities of a head profile and its seam slot: line size, ring, windows and stopping distances (R65, R118, R119,
R121, R127). Distances are exact: a count of speed is held in 1/64, and a root is rounded only at the end.
-/

namespace Sys2Proof.Machine

/-! ## Exact roots -/

/-- The bits of a square root from bit `k` down. -/
def sqrtBits (n : Nat) : Nat → Nat → Nat
  | 0, r => r
  | k + 1, r => let c := r + 2 ^ k; sqrtBits n k (if c * c ≤ n then c else r)

/-- ⌊√n⌋ for n below 2^256. -/
def isqrt (n : Nat) : Nat := sqrtBits n 128 0

/-- ⌈√n⌉. -/
def csqrt (n : Nat) : Nat := let r := isqrt n; if r * r = n then r else r + 1

/-- ⌈mul/div · d(v)⌉ for the stopping distance d of R65, with v = v64/64 counts/s, A = AMAX and J = 256·JMAX, both not 0. -/
def stopCeil (mul div v64 a j : Nat) : Nat :=
  if v64 * j ≥ 64 * a * a then ceilDiv (mul * (v64 * v64 * j + 64 * v64 * a * a)) (div * 8192 * a * j)
  else csqrt (ceilDiv (mul * mul * v64 * v64 * v64) (div * div * 262144 * j))

/-! ## The profile -/

namespace Profile

/-- b of R119. -/
def bits (r : Profile) : Nat := if r.mode.testBit 2 then 2 else 1
/-- MODE bit 1: scan mode. -/
def scan (r : Profile) : Bool := r.mode.testBit 1
/-- MODE bit 0: CMOS lanes. -/
def cmos (r : Profile) : Bool := r.mode.testBit 0
/-- MODE bit 3: bidirectional. -/
def bidir (r : Profile) : Bool := r.mode.testBit 3
/-- NPR of R127. -/
def npr (r : Profile) : Nat := r.nozzles / r.rows
/-- C of R127. -/
def groups (r : Profile) : Nat := if r.scan then r.rows else r.rows / r.redund
/-- G of R144: column groups of 64 positions. -/
def columnGroups (r : Profile) : Nat := ceilDiv r.npr 64
/-- The strobe that serves a column group (R144). -/
def strobeOf (r : Profile) (g : Nat) : Nat := g * r.strobes / r.columnGroups
/-- STAGGER of a row. -/
def stag (r : Profile) (row : Nat) : Nat := r.stagger.getD row 0
/-- STAGGER entries in use: those of the rows. -/
def stagUsed (r : Profile) : List Nat := r.stagger.take r.rows
/-- S_max of R121. -/
def sMax (r : Profile) : Nat := r.stagUsed.foldl max 0
/-- S_min of R136. -/
def sMin (r : Profile) : Nat := (r.stagUsed.drop 1).foldl min (r.stag 0)
/-- L_B of R65. -/
def lineBytes (r : Profile) : Nat := 8 * ceilDiv (r.shiftLen * r.lanes) 64
/-- K of R118. -/
def ring (r : Profile) : Nat := (r.lsBanks * 524288 - 65536) / r.lineBytes
/-- The line-store offset of the port's region (R118). -/
def region (r : Profile) : Nat := r.lsFirst * bankSize
/-- The line-store offset of a tag's slot (R118, R120). -/
def slotAt (r : Profile) (tag : Nat) : Nat := r.region + 0x10000 + tag % r.ring * r.lineBytes
/-- The rated speed v_r of R65, in 1/64 count/s. -/
def rated64 (r : Profile) : Nat := r.fireMax * r.linePitch
/-- Highest reversal band, 0xFF meaning 3 (R107). -/
def revMax (r : Profile) : Nat := if r.revBand = 0xFF then 3 else r.revBand
/-- Head throttle percentage, 0 reading as 50 (R152). -/
def throttle (r : Profile) : Nat := if r.throttlePct = 0 then 50 else r.throttlePct

end Profile

namespace SlotRec

def seam (r : SlotRec) : Bool := r.flags.testBit 2
/-- J of R65. -/
def j (r : SlotRec) : Nat := 256 * r.jmax
def dq (r : SlotRec) : Bool := r.flags.testBit 0
/-- A slot owns a generator (R210): PIDF or cascade head with limits, and every SEAM slot. -/
def hasGen (r : SlotRec) : Bool :=
  r.seam || ((r.law = 1 || r.law = 3) && r.vmax != 0 && r.amax != 0 && r.jmax != 0)

end SlotRec

/-- The law of a slot with its DQ flag (R206). -/
inductive LawKind where
  | pidf | piCurrent | piDq | cascade | heater | pressure | peakHold | unknown
  deriving DecidableEq, Repr

def SlotRec.kind (r : SlotRec) : LawKind :=
  match r.law with
  | 1 => .pidf
  | 2 => if r.dq then .piDq else .piCurrent
  | 3 => .cascade
  | 4 => .heater
  | 5 => .pressure
  | 6 => .peakHold
  | _ => .unknown

/-- Cycle cost per sample (R58). -/
def LawKind.cost : LawKind → Nat
  | .pidf => 64
  | .piCurrent => 56
  | .piDq => 136
  | .cascade => 72
  | .heater => 80
  | .pressure => 64
  | .peakHold => 40
  | .unknown => 0

/-- The SEAM slot record of an axis. -/
def Image.seamRec (i : Image) (axis : Nat) : Option SlotRec :=
  i.slots.find? fun r => r.seam && r.inKind = 1 && r.inIndex = axis

/-- N_dec of R65 with the limits of the seam slot; 0 where a limit is 0 (such an image is rejected). -/
def nDec (r : Profile) (q : SlotRec) : Nat := stopCeil 64 r.linePitch r.rated64 q.amax q.j
/-- N_back of R65. -/
def nBack (r : Profile) : Nat := ceilDiv (64 * r.backup) r.linePitch
/-- W_R of R65. -/
def windowLines (r : Profile) (q : SlotRec) : Nat := r.stagger.foldl max 0 + nDec r q + nBack r + 2
/-- A of R65. -/
def aheadLines (r : Profile) (q : SlotRec) : Nat := r.ring - windowLines r q

namespace State

/-- The seam slot record of a port's axis. -/
def portSeamRec (s : State) (p : Fin 4) : SlotRec := (s.top.image.seamRec (s.prof p).axis).getD {}
/-- W_R of a port. -/
def portWr (s : State) (p : Fin 4) : Nat := windowLines (s.prof p) (s.portSeamRec p)

end State

/-! ## Windows (R121) -/

/-- The highest tag from `v` on such that every tag between is in the rising list. -/
def extendRun : Int → List Nat → Int
  | v, [] => v
  | v, t :: rest => extendRun (if (t : Int) = v + 1 then v + 1 else v) rest

/-- V of R121: tags below 0 count as valid. -/
def Pdp.v (d : Pdp) (sMax : Nat) : Int := extendRun (max (d.f - sMax) (-1)) d.valid

/-- The ahead margin V − F; none where it is unlimited, since the END line is valid (R121). -/
def Pdp.margin (d : Pdp) (sMax : Nat) : Option Int :=
  match d.endTag with
  | some t => if d.valid.contains t then none else some (d.v sMax - d.f)
  | none => some (d.v sMax - d.f)

/-- KEEPTAG of R121. -/
def Pdp.keepTag (d : Pdp) (wR : Nat) : Nat := (d.f - wR + 1).toNat

/-- A port's line position on the axis in counts: the fire position in 1/64 count, floored. -/
def countAt (fpos : Int) : Int := fpos / 64

end Sys2Proof.Machine
end

