-- ==== Sys2Proof/Machine/Flags.lean ====
section
/-!
DEFINITION. What the part shows of its state without storing it: the event lines (R315, R316), the head record (R314), the
thermal regime (R298), caps (R153) and the windows in which registers are served (R40, R344).
-/

namespace Sys2Proof.Machine

/-! ## Records -/

/-- The reaction bits of R62. -/
def React.bits (r : React) : BitVec 5 :=
  BitVec.ofBoolListLE [r.int, r.trap, r.blkrst, r.chiprst, r.errn]

def planeRank : Plane → Nat
  | .management => 0
  | .control => 1
  | .data => 2

/-- Release order (R314): records of before a chip reset first, whose device time has started again since, then by device time, then
management, control, data. -/
def Record.before (a b : Record) : Bool :=
  if a.age != b.age then b.age < a.age
  else if a.time != b.time then a.time.toNat < b.time.toNat
  else planeRank a.plane < planeRank b.plane

/-- The first record of a list in release order; of equal ones the earlier in the list. -/
def firstRecord : List Record → Option Record
  | [] => none
  | r :: rest =>
    match firstRecord rest with
    | some x => if x.before r then some x else some r
    | none => some r

/-- The record FLT_HEAD shows. -/
def Flt.head (f : Flt) : Option Record := firstRecord (f.records.filter (·.visible))

/-- The record to be released next. -/
def Flt.nextRelease (f : Flt) : Option Record := firstRecord (f.records.filter fun r => !r.visible)

/-- A reaction held by an open record, or by OVF for unrecorded detections (R313). -/
def Flt.holds (f : Flt) (bit : Nat) (visibleOnly : Bool) : Bool :=
  (f.records.any fun r => (r.visible || !visibleOnly) && r.react.getLsbD bit) || (f.ovf && f.ovfReact.getLsbD bit)

/-! ## Lines -/

namespace State

/-- Detections of the control and data planes that are on their way to the collector (R24). -/
def reportsUnderWay (s : State) : List Detection := s.links.dirs[2].reports ++ s.links.dirs[4].reports

/-- ERR_N is asserted (R315): from the detection on, whether or not its report has arrived. -/
def errN (s : State) : Bool :=
  s.sys.phase != .inReset && (s.flt.safe || s.flt.holds 4 false || s.reportsUnderWay.any fun d => d.react.errn)

/-- TRAP_N is asserted (R315). -/
def trapN (s : State) : Bool := s.sys.phase != .inReset && s.flt.holds 1 true

/-- IRQ_N is asserted (R315, R267). -/
def irqN (s : State) : Bool :=
  s.sys.phase != .inReset && !s.host.msixEn && s.flt.irqen && (s.flt.holds 0 true || s.dma.chans.toList.any (·.irqp))

/-- FLT_STAT. -/
def fltStat (s : State) : Word :=
  pack [(24, 8, s.flt.records.length), (16, 8, s.flt.lost), flag 5 s.flt.ovf, flag 4 s.flt.cerr, flag 3 s.flt.safe,
    flag 2 s.errN, flag 1 s.trapN, flag 0 s.irqN]

/-! ## Regimes and caps -/

/-- The thermal regimes of R298, as THM_STAT.REGIME codes them: 0 start-up, 1 normal, 2 test, 3 recovery. -/
def regime (s : State) : Nat :=
  if s.thm.recovery then 3 else if s.sys.permit || s.sys.jtagtm then 2 else if s.thm.startup then 0 else 1

/-- The head throttle cause holds (R152). -/
def headThrottled (s : State) (p : Fin 4) : Bool := (s.port p).temp.throt

/-- The cap in force on a port, in % (R153). -/
def cap (s : State) (p : Fin 4) : Nat :=
  min (if s.headThrottled p then (s.prof p).throttle else 100) (if s.thm.throt then 50 else 100)

/-! ## Where registers are served -/

/-- Management registers answer: MGMT runs and the rung is L3 or above (R40, R344). -/
def mgmtServed (s : State) : Bool := s.sys.phase != .inReset && s.ladder.rung ≤ 3

/-- A write that acts only where management registers are served. -/
def mgmtWrite (f : State → State) (s : State) : State := if s.mgmtServed then f s else s

/-- A read of a management register: its word, then its side effect. -/
def mgmtRead (w : State → Word) (f : State → State) (s : State) : State :=
  if s.mgmtServed then (f s).ret (w s) else s.ret 0

end State

/-! ## Addresses (R27) -/

def sprigAddr (n off : Nat) : Nat := 0x100000 + n * 0x100 + off
def lpcAddr (c off : Nat) : Nat := 0x200000 + c * 0x10000 + off
def slotAddr (c i off : Nat) : Nat := lpcAddr c (0x1000 + i * 0x100 + off)
def tlkAddr (n off : Nat) : Nat := 0x300000 + n * 0x1000 + off
def tnodeAddr (n p off : Nat) : Nat := tlkAddr n (0x100 + p * 0x20 + off)
def posAddr (n off : Nat) : Nat := 0x400000 + n * 0x100 + off
def engAddr (e off : Nat) : Nat := 0x500000 + e * 0x10000 + off
def chanAddr (c off : Nat) : Nat := engAddr (c / 16) (0x1000 + c % 16 * 0x100 + off)
def pdpAddr (p off : Nat) : Nat := 0x600000 + p * 0x1000 + off
def hptAddr (p off : Nat) : Nat := 0x700000 + p * 0x4000 + off

end Sys2Proof.Machine
end

