-- ==== Sys2Proof/Machine/LinkOps.lean ====
section
/-!
DEFINITION. Inter-plane messages (R17 to R19) and the fault injector shared by links and Tohevik ports (R241, R242): forming
a message, sending it, choosing and altering it under an injection.
-/

namespace Sys2Proof.Machine

/-! ## Messages -/

/-- The message of R17 with its CRC-8. -/
def linkMessage (type seq : BitVec 8) (payload : BitVec 64) : BitVec 96 :=
  let body : BitVec 88 := type ++ (seq ++ (0#8 ++ payload))
  body ++ crc8 body

def msgType (m : BitVec 96) : BitVec 8 := m.extractLsb' 88 8
def msgSeq (m : BitVec 96) : BitVec 8 := m.extractLsb' 80 8
def msgPayload (m : BitVec 96) : BitVec 64 := m.extractLsb' 8 64
def msgCrcOk (m : BitVec 96) : Bool := crc8 (m.extractLsb' 8 88) == m.extractLsb' 0 8

/-- Directions as MGT_LINJCTRL.LINK numbers them: 0 control→data, 1 data→control, 2 control→management, 3 management→control,
4 data→management, 5 management→data. The plane that receives. -/
def dirReceiver (d : Fin 6) : Plane :=
  if d.val = 1 || d.val = 3 then .control else if d.val = 0 || d.val = 5 then .data else .management

/-- The four seam message types (R22). -/
def typeSeamStop : BitVec 8 := 0x10
def typeSeamHeld : BitVec 8 := 0x11
def typeSeamResume : BitVec 8 := 0x12
def typeSeamRun : BitVec 8 := 0x13
/-- A fault report (R24). -/
def typeReport : BitVec 8 := 0x20
/-- A memory command and its result (R245). -/
def typeMemCommand : BitVec 8 := 0x28
def typeMemResult : BitVec 8 := 0x29
/-- The quiescence exchange (R26): the request, a confirmation, a refusal. -/
def typeQuiesceAsk : BitVec 8 := 0x30
def typeQuiesceYes : BitVec 8 := 0x31
def typeQuiesceNo : BitVec 8 := 0x32

/-- The types the meeting points list. -/
def listedTypes : List (BitVec 8) :=
  [typeSeamStop, typeSeamHeld, typeSeamResume, typeSeamRun, typeReport, typeMemCommand, typeMemResult, typeQuiesceAsk, typeQuiesceYes,
    typeQuiesceNo]

/-- TYPE of a heartbeat message, none of the listed ones (log entry 5). -/
def heartbeatType : BitVec 8 :=
  if listedTypes.contains Config.heartbeatCode then Config.heartbeatCode ^^^ 0x80 else Config.heartbeatCode

/-- The direction that carries a plane's messages to the management plane, and the one back. -/
def toManagement : Plane → Fin 6
  | .control => 2
  | _ => 4
def fromManagement : Plane → Fin 6
  | .control => 3
  | _ => 5

/-- The payload of a seam message (R154). -/
def seamPayload (tag : BitVec 32) (port : Nat) (cancel : Bool) (fpos : Int) : BitVec 64 :=
  tag ++ (BitVec.ofNat 2 port ++ (BitVec.ofBool cancel ++ BitVec.ofInt 29 fpos))

/-- TAG, PORT, CANCEL and FPOS of a seam message (R154). -/
def seamTag (x : BitVec 64) : BitVec 32 := x.extractLsb' 32 32
def seamPort (x : BitVec 64) : BitVec 2 := x.extractLsb' 30 2
def seamCancel (x : BitVec 64) : Bool := x.getLsbD 29
def seamFpos (x : BitVec 64) : BitVec 29 := x.extractLsb' 0 29

/-- TAG of a port's stop line. -/
def Seam.tag (m : Seam) : BitVec 32 := BitVec.ofInt 32 m.line

/-! ## The injector -/

/-- One step of the Fibonacci LFSR x¹⁶ + x¹⁴ + x¹³ + x¹¹ + 1 (R242). -/
def lfsrStep (r : BitVec 16) : BitVec 16 :=
  let b := r.getLsbD 15 ^^ r.getLsbD 13 ^^ r.getLsbD 12 ^^ r.getLsbD 10
  (r <<< 1) ||| (BitVec.ofBool b).setWidth 16

/-- Whether the pattern chooses the next frame or message (R242). The LFSR is read, then stepped (log entry 14). -/
def Injector.hit (i : Injector) : Bool :=
  match i.pattern with
  | 0 => i.seen = 0
  | 1 => i.n != 0 && (i.seen + 1) % i.n = 0
  | 2 => i.lfsr.toNat < i.n
  | _ => false

/-- The injector after it has seen one frame or message, which it affected or not. -/
def Injector.see (i : Injector) (affected : Bool) : Injector :=
  { i with seen := i.seen + 1, lfsr := lfsrStep i.lfsr
           count := if affected then satAdd 0xFFFFFFFF i.count 1 else i.count }

/-- The bits a corrupt injection inverts: positions POS0 to POS(NFLIP) of INJBITS. -/
def Injector.mask (i : Injector) (w : Nat) : BitVec w :=
  (List.range (i.nflip + 1)).foldl (fun m k => m ^^^ (1#w <<< fld i.bits (8 * k) 8)) 0

/-- Every position of a corrupt pattern lies in the range allowed. -/
def Injector.positionsIn (i : Injector) (lo hi : Nat) : Bool :=
  (List.range (i.nflip + 1)).all fun k => let p := fld i.bits (8 * k) 8; lo ≤ p && p < hi

/-- The CRC-8 of a message detects the inversions: GO is refused otherwise (R242). -/
def Injector.linkPatternOk (i : Injector) : Bool :=
  let m : BitVec 96 := i.mask 96
  i.positionsIn 0 72 && crc8 (m.extractLsb' 8 88) != m.extractLsb' 0 8

/-- The bytes of a frame, byte 0 first (R227). -/
def frameBytes (f : BitVec 192) : List Byte := (List.range 24).map fun k => f.extractLsb' (8 * k) 8

/-- The CRC bytes of a frame as a CRC-16, high byte first (R227). -/
def frameCrc (f : BitVec 192) : BitVec 16 := f.extractLsb' 176 8 ++ f.extractLsb' 184 8

/-- The CRC-16 of a frame detects the inversions. -/
def Injector.framePatternOk (i : Injector) : Bool :=
  let m : BitVec 192 := i.mask 192
  i.positionsIn 16 192 && (crc16 ((frameBytes m).take 22) ^^^ crc16 (List.replicate 22 0)) != frameCrc m

/-- INJCTRL.GO with the conditions met: the injection starts. -/
def Injector.start (i : Injector) : Injector := { i with active := true, seen := 0, lfsr := 0xACE1, held := none }

def Injector.stop (i : Injector) : Injector := { i with active := false, held := none }

/-! ## Sending -/

/-- The message goes onto the wire, unless the injection chooses it (R242): dropped, corrupted, or held back until the next
one has gone. -/
def injectMessage (i : Injector) (m : BitVec 96) : List (BitVec 96) × Injector :=
  match i.held with
  | some h => ([m, h.1.setWidth 96], { i.see false with held := none })
  | none =>
    if i.hit then
      match i.kind with
      | 1 => ([], i.see true)
      | 2 => ([m ^^^ i.mask 96], i.see true)
      | 3 => ([], { i.see true with held := some (m.setWidth 192, 1) })
      | _ => ([m], i.see false)
    else ([m], i.see false)

/-- The sender takes the next SEQ, keeps the message in its 16-message replay buffer and puts `out` on the wire. -/
def LinkDir.push (now : Time48) (l : LinkDir) (m : BitVec 96) (out : List (BitVec 96)) : LinkDir :=
  let b := l.buffer ++ [m]
  { l with next := l.next + 1, buffer := b.drop (b.length - 16), wire := l.wire ++ out, sentAt := now }

/-- Send a message of a direction (R17). An injection on the direction may act on it. -/
def Links.send (now : Time48) (d : Fin 6) (type : BitVec 8) (payload : BitVec 64) (l : Links) : Links :=
  let m := linkMessage type l.dirs[d.val].next payload
  if l.inj.active && l.inj.sel = d.val then
    let r := injectMessage l.inj m
    { dirs := upd l.dirs d fun x => x.push now m r.1, inj := r.2 }
  else { l with dirs := upd l.dirs d fun x => x.push now m [m] }

/-- Send a heartbeat, which no injection touches (R242); it carries the device time (R314). -/
def Links.heartbeat (now : Time48) (d : Fin 6) (l : Links) : Links :=
  let m := linkMessage heartbeatType l.dirs[d.val].next (now.setWidth 64)
  { l with dirs := upd l.dirs d fun x => x.push now m [m] }

/-- The oldest accepted message of a direction that a command acts on. -/
def LinkDir.oldest (l : LinkDir) (type : BitVec 8) (f : BitVec 64 → Bool) : Option (BitVec 96) :=
  l.accepted.find? fun m => msgType m == type && f (msgPayload m)

namespace State

/-- Send a message at this moment. -/
def sendMessage (d : Fin 6) (type : BitVec 8) (payload : BitVec 64) (s : State) : State :=
  s.onLinks (Links.send s.times.dev d type payload)

/-- Send a message whose payload has no stated layout. -/
def sendFields (d : Fin 6) (type : BitVec 8) (fields : List Nat) (s : State) : State :=
  s.sendMessage d type (Config.payloadOf type fields)

/-- The oldest accepted message of a type on a direction that satisfies a condition on its payload. -/
def arrived (d : Fin 6) (type : BitVec 8) (f : BitVec 64 → Bool) (s : State) : Option (BitVec 96) := s.links.dirs[d.val].oldest type f

/-- The receiver acts on an accepted message: it leaves the direction. -/
def takeMessage (d : Fin 6) (m : BitVec 96) (s : State) : State :=
  s.onLinks fun l => { l with dirs := upd l.dirs d fun x => { x with accepted := x.accepted.erase m } }

/-- A seam message of a port (R22, R154): data→control is direction 1, control→data direction 0. -/
def sendSeam (toControl : Bool) (type : BitVec 8) (tag : BitVec 32) (p : Fin 4) (cancel : Bool) (fpos : Int) (s : State) : State :=
  s.sendMessage (if toControl then 1 else 0) type (seamPayload tag p.val cancel fpos)

end State

end Sys2Proof.Machine
end

