-- ==== Sys2Proof/Machine/Release.lean ====
section
/-!
DEFINITION. The operations that let go of things: parking a slot (R189), ending a port's arming with its windows, seam and
channel (R125, R163, R183), posting a completion record (R267), and the three block resets (R184, R240, R270).
-/

namespace Sys2Proof.Machine

/-- Replace bits `lo + width − 1 : lo`. -/
def putField {n : Nat} (v : BitVec n) (lo width val : Nat) : BitVec n :=
  (v &&& ~~~(BitVec.ofNat n ((2 ^ width - 1) * 2 ^ lo))) ||| BitVec.ofNat n (val % 2 ^ width * 2 ^ lo)

/-! ## Slots -/

/-- The generator at rest; its registers keep their values, and a command written to a slot that does not run is kept (R212). -/
def Gen.cleared (g : Gen) : Gen :=
  { next := g.next, regOp := g.regOp, regTarget := g.regTarget, regVel := g.regVel, regAcc := g.regAcc, regJerk := g.regJerk
    clip := g.clip, arrived := g.arrived, vlim := g.vlim }

/-- No signal runs from the next tick on; a sample already released still takes its value (R216). -/
def TestSig.stopped (t : TestSig) : TestSig := { t with active := false, fresh := false }

def TestSig.cleared (t : TestSig) : TestSig := { t.stopped with n := 0, phase := 0, lfsr := 0 }

/-- A command written to a running slot that no tick has applied goes when the slot parks (log entry 27). -/
def Slot.dropNext (x : Slot) : Slot := if x.state = .running then { x with gen := { x.gen with next := none } } else x

/-- The slot parked, with integrators, generator, model and test state cleared (R189). -/
def Slot.parked (x : Slot) : Slot :=
  { x with state := .parked, parking := false, integ := 0, integD := 0, ePrev := 0, uPrev := 0, uPrevD := 0
           firstSample := true, gen := x.dropNext.gen.cleared, ts := x.ts.cleared, model := 0, validRun := 0, jobs := [], outs := [] }

/-- The node command with a slot's output parked: duties zero for a bridge, the solenoid off (R189). BRIDGE itself follows the
slot's state at each cycle (R230). -/
def parkCommand (r : SlotRec) (cmd : BitVec 160) : BitVec 160 :=
  if r.outKind = 2 then putField cmd 0 48 0
  else let o := r.outIndex % 4; putField (putField cmd (56 + o) 1 0) (64 + 16 * o) 16 0

namespace State

/-- The node a slot record drives: port and position (R57). -/
def nodeOfRec (r : SlotRec) : Option (Fin 8 × Fin 8) :=
  let k := if r.outKind = 2 then r.outIndex else r.outIndex / 4
  if r.outKind = 2 || r.outKind = 3 then (fin? 8 (k / 8)).bind fun a => (fin? 8 (k % 8)).map fun b => (a, b) else none

/-- The output of a slot parks: a sprig goes idle at its next boundary, a node output takes its off value (R80, R189). -/
def parkOutput (r : SlotRec) (s : State) : State :=
  match r.outKind with
  | 1 => match fin? 96 r.outIndex with
    | some n => s.onSprig n fun g => { g with slotOut := some .park, slotCycle := s.times.fab }
    | none => s
  | _ => match nodeOfRec r with
    | some (a, b) => s.onTNode a b fun t => { t with command := parkCommand r t.command }
    | none => s

/-- Park a running or holding slot, or one whose PARK waits, at once, with its output. -/
def parkSlot (c : Fin 4) (i : Fin 24) (s : State) : State :=
  let x := s.slot c i
  if x.state = .running || x.state = .holding || x.parking then (s.onSlot c i Slot.parked).parkOutput x.cfg else s

/-- All slots of all cores. -/
def allSlots : List (Fin 4 × Fin 24) :=
  (List.finRange 4).flatMap fun c => (List.finRange 24).map fun i => (c, i)

/-- Park every slot that satisfies a condition on its record. -/
def parkWhere (f : SlotRec → Bool) (s : State) : State :=
  allSlots.foldl (fun t x => if f (s.slot x.1 x.2).cfg then t.parkSlot x.1 x.2 else t) s

/-- A slot whose output targets node `p` of port `n`. -/
def targetsNode (n p : Nat) (r : SlotRec) : Bool :=
  match nodeOfRec r with
  | some (a, b) => a.val = n && b.val = p
  | none => false

def targetsPort (n : Nat) (r : SlotRec) : Bool :=
  match nodeOfRec r with
  | some (a, _) => a.val = n
  | none => false

end State

/-! ## DMA channels -/

/-- A completion record (R266). -/
def Owed.record (o : Owed) (c : Nat) (phase : Bool) : List Byte :=
  leBytes 4 o.desc.user.toNat ++ leBytes 1 o.status ++
    leBytes 1 (o.late.toNat + 2 * o.replayed.toNat + 4 * o.mismatch.toNat + 8 * o.withdrew.toNat) ++
    leBytes 1 c ++ leBytes 1 (128 * phase.toNat + o.index % 128) ++ leBytes 4 o.count ++ leBytes 4 o.aux.toNat

/-- A record fits the completion ring (R267). -/
def Chan.room (ch : Chan) : Bool := ch.rsize != 0 && (ch.rhead + 1) % ch.rsize != ch.rtail

/-- The record the channel posts next: the oldest owed, when it is complete and the ring has room (R267). -/
def Chan.postable (ch : Chan) : Option Owed :=
  match ch.owed with
  | o :: _ => if o.complete && ch.room then some o else none
  | [] => none

/-- The channel after it has posted its oldest record; `irq` without MSI-X sets IRQP. -/
def Chan.posted (ch : Chan) (o : Owed) (viaMsi : Bool) : Chan :=
  let h := (ch.rhead + 1) % ch.rsize
  { ch with owed := ch.owed.drop 1, rhead := h, phase := if h = 0 then !ch.phase else ch.phase, lastStatus := o.status
            irqp := ch.irqp || (o.desc.ctrl.getLsbD 11 && !viaMsi), fullRaised := false }

/-- A descriptor whose destination is a port's ahead queue (R122). -/
def Desc.isPrint (d : Desc) : Bool := fld d.ctrl 6 2 = 3
def Desc.port (d : Desc) : Nat := fld d.ctrl 8 2
def Desc.op (d : Desc) : Nat := fld d.ctrl 0 4
def Desc.srck (d : Desc) : Nat := fld d.ctrl 4 2
def Desc.dstk (d : Desc) : Nat := fld d.ctrl 6 2
def Desc.isEnd (d : Desc) : Bool := d.ctrl.getLsbD 10
/-- The last tag of a print descriptor. -/
def Desc.lastTag (d : Desc) : Nat := d.tag + d.length - 1

/-- A descriptor begins: its record is owed. -/
def Chan.begin (ch : Chan) (d : Desc) : Chan :=
  { ch with cur := some d, done := 0, bursts := [], written := 0, fail := 0, mismatches := 0, firstMismatch := none
            owed := ch.owed ++ [{ desc := d, index := ch.dtail, ended := false, print := d.isPrint, lastTag := d.lastTag }] }

/-- The current descriptor ends, `f` giving its record what it ends with: DTAIL advances, and the channel goes on, stops, halts or
goes idle (R263, R270). -/
def Chan.endDesc (ch : Chan) (f : Owed → Owed) : Chan :=
  let t := if ch.dsize = 0 then ch.dtail else (ch.dtail + 1) % ch.dsize
  let failed := (ch.owed.find? fun o => !o.ended).any fun o => (f o).status != 0
  { ch with owed := ch.owed.map fun o => if o.ended then o else { f o with ended := true }
            cur := none, done := 0, bursts := [], written := 0, fail := 0, mismatches := 0, firstMismatch := none, dtail := t
            state := if failed then .halted else if ch.state = .stopping then .stopped
                     else if t = ch.dhead then .idle else ch.state }

/-- The last fire line that uses a line of the print descriptor has fired (R124). -/
def Owed.printed (r : Profile) (lines : Nat) (fired : Int) (o : Owed) : Bool :=
  if r.scan then lines != 0 && decide (((o.lastTag / lines + 1) * lines : Int) - 1 ≤ fired)
  else decide ((o.lastTag + r.sMax : Int) ≤ fired)

/-- The records of ended print descriptors whose last fire line has fired are complete. -/
def Chan.settle (r : Profile) (lines : Nat) (fired : Int) (ch : Chan) : Chan :=
  { ch with owed := ch.owed.map fun o =>
      if o.ended && o.print && o.printed r lines fired then { o with complete := true } else o }

/-- The port the channel feeds disarms (R125): records not complete end with TARGET WITHDREW; the descriptor in progress ends
so too, at once or when its burst in flight has completed; the channel stops at that boundary. -/
def Chan.withdraw (ch : Chan) : Chan :=
  let ch1 := { ch with owed := ch.owed.map fun o =>
    if o.ended && o.print && !o.complete then { o with complete := true, withdrew := true } else o }
  match ch.cur with
  | some d =>
    if d.isPrint then
      if ch.bursts = [] then { ch1 with state := .stopping }.endDesc fun o => { o with withdrew := true, complete := true }
      else { ch1 with state := .stopping }
    else ch1
  | none => if ch.state = .running then { ch1 with state := .stopped } else ch1

namespace State

/-- Bytes into a ring or destination in the DMA area of keep RAM (LOC = 1) or in host memory. -/
def ringWrite (loc : Bool) (a : Nat) (bytes : List Byte) (s : State) : State :=
  if loc then s.onMem fun m => m.writeBytes 6 (a % 0x2000) bytes
  else s.onDma fun d => { d with hostMem := hostWrite d.hostMem a bytes }

/-- Post the channel's oldest record where it can be (R266, R267). -/
def postRecord (c : Fin 64) (s : State) : State :=
  let ch := s.chan c
  match ch.postable with
  | some o =>
    let s1 := s.ringWrite ch.loc (ch.rbase.toNat + 16 * ch.rhead) (o.record c.val ch.phase)
    let s2 := s1.onChan c fun k => k.posted o s.host.msixEn
    if o.desc.ctrl.getLsbD 11 && s.host.msixEn then s2.sendMsi ch.vector else s2
  | none => s

/-- Post until none can be posted, at most `n`. -/
def postRecords (c : Fin 64) : Nat → State → State
  | 0, s => s
  | n + 1, s => postRecords c n (s.postRecord c)

/-- Engine of a channel. -/
def engineOf (c : Fin 64) : Fin 4 := ⟨c.val / 16, by omega⟩

/-- The channel's grant ends where it holds its engine (R268). -/
def dropGrant (c : Fin 64) (s : State) : State :=
  s.onEngine (engineOf c) fun g => if g.granted = some (c.val % 16) then { g with granted := none } else g

/-- The port a channel feeds has disarmed (R125): the channel withdraws, and where nothing of it is in progress any more its grant
ends. -/
def withdrawChan (c : Fin 64) (f : Chan → Chan) (s : State) : State :=
  let s1 := s.onChan c fun k => (f k).withdraw
  if (s1.chan c).cur.isNone then s1.dropGrant c else s1

/-- Block reset of a channel (R270), which ends its grant. -/
def resetChan (c : Fin 64) (s : State) : State :=
  let s1 := s.onChan c fun k => { k with owed := k.owed.map fun o => { o with complete := true, ended := true } }
  ((s1.postRecords c (s.chan c).owed.length).onChan c fun k =>
    { k with log := [], dtail := k.dhead, state := .idle, cur := none, done := 0, bursts := [], written := 0, fail := 0 }).dropGrant c

end State

/-! ## Ports -/

/-- The rings and windows empty, a mask set that has not applied is dropped (R125, R136). -/
def Pdp.flush (d : Pdp) : Pdp :=
  { d with valid := [], asm := [], wanted := [], replay := false, replayLost := false, endTag := none, pend := none, hmbusy := false
           channel := none }

/-- The seam is over: every cause bit and STATE read 0. -/
def Seam.ended (m : Seam) : Seam :=
  { m with late := false, shut := false, supply := false, sos := false, rev := false, unset := false, ue := false
           pause := false, state := 0, resumed := false, stopFrom := none }

/-- The port disarmed, for a cause of ARMSTAT.DISCAUSE. -/
def Port.disarmed (cause : Nat) (q : Port) : Port :=
  { q with arm := { q.arm with armed := false, disarming := false, discause := cause }
           pdp := q.pdp.flush, seam := q.seam.ended, fire := { q.fire with committed := none }
           sos := { q.sos with held := [], centre := none, missed := false, between := false, nearing := false, rerun := none } }

/-- The head is gone or unknown: PRESENT, ACCEPTED and OPEN clear, and what runs on the sideband ends (R173, R184). -/
def Head.gone (h : Head) : Head :=
  { h with present := false, accepted := false, opened := false, abusy := false, usage := none, usagePend := none
           pollsLeft := 0, ready := false, misses := 0, sbBusy := false }

namespace State

/-- The port's arming ends at once (R183): its seam is cancelled on the axis unless the safe state has parked every slot
(R163), and the channel that feeds it withdraws (R125). -/
def endArming (p : Fin 4) (cause : Nat) (s : State) : State :=
  let q := s.port p
  if q.arm.armed then
    let s1 := if q.seam.state != 0 && cause != 3 then
        s.sendSeam true typeSeamResume q.seam.tag p true q.seam.fpos
      else s
    let s2 := s1.onPort p (Port.disarmed cause)
    match q.pdp.channel.bind (fin? 64) with
    | some c => s2.withdrawChan c fun k => k.settle (s.prof p) q.sos.lines q.pdp.fired
    | none => s2
  else s

/-- Block reset of a head port (R184): the port disarms with DISCAUSE 4 and its head is unknown; CUT survives. -/
def resetPort (p : Fin 4) (s : State) : State :=
  (s.endArming p 4).onPort p fun q => { q with head := q.head.gone, fire := { q.fire with committed := none } }

/-- Block reset of a Tohevik port (R240): SAFE for 4 cycles, its slots park, sequence state and counters clear, then it
trains. -/
def resetTlk (n : Fin 8) (s : State) : State :=
  (s.parkWhere (targetsPort n.val)).onTlk n fun t =>
    { t with state := .training, step := .unaddr, stepCycles := 0, resetCycles := 4, cycle := 0, nodes := Vector.replicate 8 {} }

/-- The block reset of a source's block, named by the detection's index (R310, R311). -/
def blockReset (source index : Nat) (s : State) : State :=
  match source with
  | 0x20 => match fin? 64 index with
    | some c => s.resetChan c
    | none => s
  | 0x30 | 0x37 => match fin? 4 index with
    | some p => s.resetPort p
    | none => s
  | 0x53 => match fin? 8 (index / 8) with
    | some n => s.resetTlk n
    | none => s
  | _ => s

end State

end Sys2Proof.Machine
end

