-- ==== Sys2Proof/Machine/Faults.lean ====
section
/-!
DEFINITION. The fault collector (R309 to R320): a detection with its reactions, records, their release and acknowledgement,
the safe state.
-/

namespace Sys2Proof.Machine

/-- The merge unit of an instance (R311). -/
def mergeUnit (kind index : Nat) : Nat × Nat :=
  match kind with
  | 1 | 9 | 10 | 11 => (kind, 0)
  | 2 => (2, index / 0x100000)
  | 6 => (6, index / 8)
  | _ => (kind, index)

/-- FLT_REACTn of a source. -/
def Flt.reactOf (f : Flt) (source : Nat) : React := (elem? f.react source).getD {}

/-- A record the detection merges into (R312). -/
def Flt.mergesWith (d : Detection) (r : Record) : Bool := mergeUnit r.kind r.index == mergeUnit d.kind d.index

/-- The record after a merge (R312); its vector is the first one that was not 0 (log entry 15). -/
def Record.merge (d : Detection) (cls : Nat) (x : React) (r : Record) : Record :=
  { r with mask := r.mask ||| (1#128 <<< d.source), merges := satAdd 0xFFFF r.merges 1, cls := max r.cls cls
           react := r.react ||| x.bits, vector := if r.vector = 0 then x.vector else r.vector }

/-- A new record (R312). -/
def Detection.open (d : Detection) (id : BitVec 16) (cls : Nat) (x : React) (reserved : Bool) : Record :=
  { id, source := d.source, cls, kind := d.kind, index := d.index, plane := d.plane, time := d.time
    mask := 1#128 <<< d.source, react := x.bits, vector := x.vector, reserved }

/-- What the collector does with a detection (R312, R313). -/
inductive Intake where
  | merge | ordinary | reserved | mergeReserved | lost
  deriving DecidableEq, Repr

def Flt.capture (f : Flt) (d : Detection) (cls : Nat) : Intake :=
  if f.records.any (Flt.mergesWith d) then .merge
  else if (f.records.filter fun r => !r.reserved).length < 32 then .ordinary
  else if cls = 3 then (if f.records.any (·.reserved) then .mergeReserved else .reserved)
  else .lost

/-- The collector's records after a detection. -/
def Flt.record (f : Flt) (d : Detection) (cls : Nat) : Flt :=
  let x := d.react
  match f.capture d cls with
  | .merge => { f with records := f.records.map fun r => if Flt.mergesWith d r then r.merge d cls x else r }
  | .ordinary => { f with records := f.records ++ [d.open (f.nextId + 1) cls x false], nextId := f.nextId + 1 }
  | .reserved => { f with records := f.records ++ [d.open (f.nextId + 1) cls x true], nextId := f.nextId + 1 }
  | .mergeReserved => { f with records := f.records.map fun r => if r.reserved then r.merge d cls x else r }
  | .lost => { f with ovf := true, lost := satAdd 0xFF f.lost 1, ovfReact := f.ovfReact ||| x.bits }

/-- The collector after it has taken a detection; a source outside the table is never raised (R310). -/
def Flt.collect (d : Detection) (f : Flt) : Flt :=
  match sourceInfo d.source with
  | none => f
  | some i => f.record d i.cls

/-- What a detection does to the collector at once, whichever plane makes it: the safe state of a fatal one (R25, R316), the flag of 0x07
and 0x08 (R318). -/
def Flt.signal (source : Nat) (f : Flt) : Flt :=
  match sourceInfo source with
  | none => f
  | some i => { f with safe := f.safe || i.cls = 3, clockOrHeartbeat := f.clockOrHeartbeat || source = 7 || source = 8 }

/-- The MSI-X messages sent at the detection itself: of an unrecorded one, and of a merge that raises the class of a visible
record (R313, R315). -/
def Flt.messages (f : Flt) (d : Detection) : List Nat :=
  match sourceInfo d.source with
  | none => []
  | some i =>
    let x := d.react
    let send (bits : BitVec 5) (v : Nat) := (if bits.getLsbD 0 then [v] else []) ++ if bits.getLsbD 1 then [0] else []
    match f.capture d i.cls with
    | .lost => send x.bits x.vector
    | .merge =>
      match f.records.find? (Flt.mergesWith d) with
      | some r => if r.visible && r.cls < i.cls then send (r.merge d i.cls x).react (r.merge d i.cls x).vector else []
      | none => []
    | .mergeReserved =>
      match f.records.find? (·.reserved) with
      | some r => if r.visible && r.cls < i.cls then send (r.merge d i.cls x).react (r.merge d i.cls x).vector else []
      | none => []
    | _ => []

/-- The warning and throttle levels end where the normal regime is left (R299). -/
def Thm.leaveNormal (t : Thm) : Thm := { t with warn := false, throt := false }

/-- Every level starts as not in force where the normal regime is entered (R299). -/
def Thm.enterNormal (t : Thm) : Thm := { t with warn := false, throt := false, shut := false }

namespace State

/-- A change of what chooses the regime, with the effects of leaving or entering the normal regime (R299). -/
def changeRegime (f : State → State) (s : State) : State :=
  (f s).onThm fun t =>
    if s.regime = 1 && (f s).regime != 1 then t.leaveNormal
    else if s.regime != 1 && (f s).regime = 1 then t.enterNormal else t

/-- What a detection does at once over dedicated lines (R25, R316): the safe state and the recovery regime of a fatal one. -/
def signalFatal (source : Nat) (s : State) : State :=
  (s.onFlt (Flt.signal source)).onThm fun t =>
    if (sourceInfo source).any fun i => i.cls = 3 then { t.leaveNormal with recovery := true } else t

/-- The collector takes a detection: its record and messages (R312, R313), and a chip reset owed once it is captured (R315). -/
def collect (d : Detection) (s : State) : State :=
  ((s.flt.messages d).foldl (fun t v => t.sendMsi v) (s.onFlt (Flt.collect d))).onSys fun y =>
    if (sourceInfo d.source).isSome && d.react.chiprst then { y with resetOwed := some d.source } else y

/-- The block reset of a detection with that reaction, at the detection (R315). -/
def resetBlock (d : Detection) (s : State) : State :=
  if (sourceInfo d.source).isSome && d.react.blkrst then s.blockReset d.source d.index else s

/-- A detection of the management plane, with all its reactions (R312 to R316). -/
def detect (d : Detection) (s : State) : State := ((s.signalFatal d.source).collect d).resetBlock d

/-- A detection of the control or data plane (R24, R25): a TYPE 0x20 message on the plane's link to the management plane, the fatal line
beside it. -/
def report (d : Detection) (s : State) : State :=
  if (sourceInfo d.source).isSome then
    let dir := toManagement d.plane
    let s1 := (s.signalFatal d.source).sendFields dir typeReport [d.source, d.kind, d.index, d.time.toNat]
    (s1.onLinks fun l => { l with dirs := upd l.dirs dir fun x => { x with reports := x.reports ++ [d] } }).resetBlock d
  else s

/-- The detection of a source at this moment, with the reactions it has now. -/
def detection (plane : Plane) (source kind index : Nat) (s : State) : Detection :=
  { plane, source, kind, index, time := s.times.dev, react := s.flt.reactOf source }

/-- A detection of this moment. -/
def raise (plane : Plane) (source kind index : Nat) (s : State) : State :=
  let d := s.detection plane source kind index
  if plane = .management then s.detect d else s.report d

/-- Raise where a condition holds. -/
def raiseIf (b : Bool) (plane : Plane) (source kind index : Nat) (s : State) : State :=
  if b then s.raise plane source kind index else s

/-- Source 0x63: an access to an absent unit, named by its BAR0 offset (R33, R311). The host bridge reports it; deeper than L1, where only
management registers are reached, the management plane does (log entry 133). -/
def raiseAbsent (offset : Nat) (s : State) : State :=
  s.raise (if s.clocked then .data else .management) 0x63 9 (offset / 4 % 0x800000)

/-- A write to a control-plane or data-plane register: at L2 or deeper it completes without effect (R40), and one to an absent
unit raises 0x63 (R33). -/
def planeWrite (present : Bool) (offset : Nat) (f : State → State) (s : State) : State :=
  if s.clocked then (if present then f s else s.raiseAbsent offset) else s

/-- A read of a control-plane or data-plane register, as `planeWrite`; without effect it returns 0. -/
def planeRead (present : Bool) (offset : Nat) (w : State → Word) (f : State → State) (s : State) : State :=
  if s.clocked then (if present then (f s).ret (w s) else (s.raiseAbsent offset).ret 0) else s.ret 0

end State

/-! ## Commands -/

/-- The report a plane's link has delivered and the collector takes next: the oldest accepted TYPE 0x20 message and what it carries. -/
def State.reportDue (plane : Plane) (s : State) : Option (BitVec 96 × Detection) :=
  match s.arrived (toManagement plane) typeReport (fun _ => true), s.links.dirs[(toManagement plane).val].reports with
  | some m, d :: _ => some (m, d)
  | _, _ => none

/-- The collector takes a delivered report. -/
def State.takeReport (plane : Plane) (m : BitVec 96) (d : Detection) (s : State) : State :=
  ((s.takeMessage (toManagement plane) m).onLinks fun l =>
    { l with dirs := upd l.dirs (toManagement plane) fun x => { x with reports := x.reports.drop 1 } }).collect d

/-- FAULT_REPORT (R312): a detection of the management plane, or the report of another plane that its link has delivered. -/
def execFaultReport (plane : Plane) (source : BitVec 8) (kind : BitVec 8) (index : BitVec 24) (time : Time48) (s : State) : Res :=
  .next (if plane = .management then
    s.detect { plane, source := source.toNat, kind := kind.toNat, index := index.toNat, time, react := s.flt.reactOf source.toNat }
  else match s.reportDue plane with
    | some (m, d) =>
      if s.mgmtClocked && d.source = source.toNat && d.kind = kind.toNat && d.index = index.toNat && d.time = time then
        s.takeReport plane m d
      else s
    | none => s)

/-- A Tohevik port under the safe-state lines: a running one sends SAFE from its next slot on (R238); its injection ends
(R241). -/
def Tlk.toSafe (t : Tlk) : Tlk :=
  { t with state := if t.state = .running then .safe else t.state, inj := t.inj.stop }

/-- Both links to the management plane have delivered a message as late as the record, a link declared failed in either direction apart
(R314). -/
def releasable (l : Links) (r : Record) : Bool :=
  let past (d back : LinkDir) := d.failed || back.failed || r.time.toNat ≤ d.lastTime.toNat
  r.preReset || (past l.dirs[2] l.dirs[3] && past l.dirs[4] l.dirs[5])

/-- RECORD_RELEASE (R314, R315): the next record in release order becomes visible and its interrupt and trap messages go. -/
def execRecordRelease (s : State) : Res :=
  .next (match s.flt.nextRelease with
    | some r =>
      if s.mgmtServed && releasable s.links r then
        let s1 := s.onFlt fun f => { f with records := f.records.map fun x =>
          if x.id = r.id && !x.visible then { x with visible := true } else x }
        let s2 := if r.react.getLsbD 0 then s1.sendMsi r.vector else s1
        if r.react.getLsbD 1 then s2.sendMsi 0 else s2
      else s
    | none => s)

/-- FLT_ACK (R312): the head record's ID closes it; any other sets CERR. -/
def Flt.ack (id : BitVec 16) (f : Flt) : Flt :=
  match f.head with
  | some r =>
    if r.id = id then { f with records := f.records.filter fun x => !(x.visible && x.id = id) } else { f with cerr := true }
  | none => { f with cerr := true }

def execFltAck (id : BitVec 16) (s : State) : Res := .next (s.mgmtWrite fun t => t.onFlt (Flt.ack id))

/-- The conditions of R318. A record is open from its detection on (R312), so a fatal one on its way to the collector counts. -/
def State.safeMayEnd (s : State) : Bool :=
  !(s.flt.records.any fun r => r.cls = 3) && !(s.reportsUnderWay.any fun d => (sourceInfo d.source).any fun i => i.cls = 3) && !s.thm.shut && s.sys.clkLoss = 0 && !s.flt.clockOrHeartbeat

/-- The safe state ends (R318): the recovery regime ends, the Tohevik ports carry commands again; sprigs stay idle, slots
parked, nodes in their local safe state. -/
def State.endSafe (s : State) : State :=
  ((s.onFlt fun f => { f with safe := false }).changeRegime fun t => t.onThm fun h => { h with recovery := false }).onTlks
    fun v => v.map fun t => if t.state = .safe then { t with state := .running } else t

/-- FLT_SAFE.END (R318); written while no safe state is in force it has nothing to end. -/
def State.writeSafeEnd (s : State) : State :=
  if s.safeMayEnd then (if s.flt.safe then s.endSafe else s) else s.onFlt fun f => { f with cerr := true }

/-- FLT_SAFE_END (R318). -/
def execFltSafeEnd (s : State) : Res := .next (s.mgmtWrite State.writeSafeEnd)

/-- The value of a FLT_REACTn register (R322). -/
def React.word (n : Nat) (r : React) : Word :=
  match sourceInfo n with
  | none => 0
  | some i => pack [(16, 2, i.cls), (8, 5, r.vector), flag 5 i.blockReset, flag 4 r.errn, flag 3 r.chiprst,
      flag 2 r.blkrst, flag 1 r.trap, flag 0 r.int]

/-- The reactions a FLT_REACTn write names. -/
def React.ofWord (w : Word) : React :=
  { int := w.getLsbD 0, trap := w.getLsbD 1, blkrst := w.getLsbD 2, chiprst := w.getLsbD 3, errn := w.getLsbD 4
    vector := fld w 8 5 }

/-- R322: the write is taken as a whole or ignored as a whole. -/
def React.allowed (i : SourceInfo) (r : React) : Bool :=
  (r.int == (r.vector != 0)) && (!r.blkrst || i.blockReset) && (i.cls != 3 || r.errn)

def Flt.writeReact (source : Nat) (w : Word) (f : Flt) : Flt :=
  match sourceInfo source with
  | none => f
  | some i =>
    if (React.ofWord w).allowed i then { f with react := updNat f.react source fun _ => React.ofWord w }
    else { f with cerr := true }

def execFltReactWrite (source : BitVec 8) (value : Word) (s : State) : Res :=
  .next (s.mgmtWrite fun t => t.onFlt (Flt.writeReact source.toNat value))

/-- FLT_HEAD. -/
def Record.headWord (r : Record) : Word :=
  pack [(31, 1, 1), (29, 2, r.cls), flag 28 r.preReset, (16, 8, r.source), (0, 16, r.id.toNat)]

def Flt.headWord (f : Flt) : Word := (f.head.map Record.headWord).getD 0

/-- A FLT_HEAD read latches FLT_HINST to FLT_HREACT (R312). -/
def execFltHeadRead (s : State) : Res :=
  .next (s.mgmtRead (fun t => t.flt.headWord) fun t => t.onFlt fun f => { f with latched := f.head })

/-- LOST_READ: a read of FLT_STAT returns LOST and clears it (R313). -/
def execLostRead (s : State) : Res :=
  .next (s.mgmtRead State.fltStat fun t => t.onFlt fun f => { f with lost := 0 })

/-- A heartbeat block is present on the variant (R320). -/
def State.hasBlock (s : State) (n : Nat) : Bool :=
  if n < 4 then n < s.sys.variant.ports
  else if n < 8 then n - 4 < s.sys.variant.engines
  else if n < 10 then true
  else if n < 14 then n - 10 < s.sys.variant.cores
  else if n < 16 then true
  else if n < 24 then n - 16 < s.sys.variant.tlks
  else true

/-- HEARTBEAT_TIMEOUT (R320): no toggle from a present, ungated block for 50 µs. -/
def execHeartbeatTimeout (block : Fin 26) (s : State) : Res :=
  .next (s.raiseIf (s.clocked && s.hasBlock block.val) .management 0x08 8 block.val)

end Sys2Proof.Machine
end

