-- ==== Sys2Proof/Machine/MemOps.lean ====
section
/-!
DEFINITION. What the memory controllers do beside delivering bytes: the sources of R247, R253 and R254, the repeat tracker
(R255), the remap table (R256), the scrub of a word (R257), bank power (R249, R275).
-/

namespace Sys2Proof.Machine

/-- The plane that owns a memory's controller (R245). -/
def memPlane (memsel : Nat) : Plane :=
  if memsel = 0 || memsel = 6 then .data else if memsel ≤ 4 then .control else .management

/-- The memories of a variant, by MEMSEL: the capture RAM of an absent core is absent (R33, R245). -/
def presentMems (v : Variant) : BitVec 9 := BitVec.ofNat 9 (0x1E1 + 2 * (2 ^ v.cores - 1))

/-- The controller of a memory is in another plane than the MEM block. -/
def remoteMem (memsel : Nat) : Bool := memPlane memsel != .management

/-- The fields of a memory command and of its result, whose layout the payload of R17 leaves open (log entry 133). -/
def MemCommand.fields (memsel : Nat) : MemCommand → List Nat
  | .scrub first limit => [memsel, 0, first, limit]
  | .scrubAbort => [memsel, 1]
  | .testRegion region => [memsel, 2, region]
  | .remap offset => [memsel, 3, offset]

def MemResult.fields (memsel : Nat) : MemResult → List Nat
  | .scrubbed x => [memsel, 0, x.corr, x.uncorr, x.first, x.last, x.remapped]
  | .tested failed => [memsel, 1, failed.getD 0]

/-- INDEX of a memory word (R311). -/
def wordIndex (memsel a : Nat) : Nat := memsel * 0x100000 + a / 8 % 0x100000

/-- The tracker after a correction of a word, with the word's count of this epoch (R255). -/
def track (l : List Tracked) (a : Nat) : List Tracked × Nat :=
  match l.find? fun t => t.offset = a with
  | some t => (l.filter (fun x => x.offset != a) ++ [{ t with count := t.count + 1 }], t.count + 1)
  | none =>
    if l.length < 4 then (l ++ [⟨a, 1⟩], 1)
    else
      let low := l.foldl (fun m t => min m t.count) ((l.map (·.count)).headD 0)
      let victim := l.findIdx fun t => t.count = low
      (l.eraseIdx victim ++ [⟨a, 1⟩], 1)

/-- The tags of a port's ring slot that holds a line-store offset become invalid (R120). -/
def Pdp.invalidateAt (r : Profile) (a : Nat) (d : Pdp) : Pdp :=
  let base := r.region + 0x10000
  if base ≤ a && a < base + r.ring * r.lineBytes then
    { d with valid := d.valid.filter fun t => t % r.ring != (a - base) / r.lineBytes }
  else d

namespace State

/-- An uncorrectable byte in a line-store word invalidates the slot that holds it (R120). -/
def invalidateSlots (a : Nat) (s : State) : State :=
  portNumbers.foldl (fun t p =>
    match s.profile p with
    | some r => t.onPort p fun q => { q with pdp := q.pdp.invalidateAt r a }
    | none => t) s

/-- The MEM block asks something of a controller in another plane: a TYPE 0x28 message on that plane's link (R245). -/
def askMem (memsel : Nat) (c : MemCommand) (s : State) : State :=
  let d := fromManagement (memPlane memsel)
  (s.onLinks fun l => { l with dirs := upd l.dirs d fun x => { x with tasks := x.tasks ++ [(memsel, c)] } }).sendFields d typeMemCommand
    (c.fields memsel)

/-- A controller in another plane reports to the MEM block: a TYPE 0x29 message (R245). -/
def tellMem (memsel : Nat) (r : MemResult) (s : State) : State :=
  let d := toManagement (memPlane memsel)
  (s.onLinks fun l => { l with dirs := upd l.dirs d fun x => { x with results := x.results ++ [(memsel, r)] } }).sendFields d typeMemResult
    (r.fields memsel)

/-- Give a word a remap entry with its data as delivered, of which its controller hears by a remap update, or raise 0x13 when the table is
full (R256). -/
def remapWord (memsel a : Nat) (s : State) : State :=
  if (s.mem.remapped memsel a).isSome then s
  else if s.mem.remap.length < 16 then
    (s.onMem fun m => { m with remap := m.remap ++ [{ memsel := memsel, offset := a / 8 * 8, data := m.word64 memsel a }] }).askMem memsel
      (.remap (a / 8 * 8))
  else s.raise (memPlane memsel) 0x13 2 (wordIndex memsel a)

/-- A corrected word: source 0x10, and in the tracker a correction; the third of an epoch raises 0x12 and remaps the word of a
line store or capture RAM (R247, R255, R256). -/
def noteCorrected (memsel a : Nat) (s : State) : State :=
  let t := track ((elem? s.mem.trackers memsel).getD []) (a / 8 * 8)
  let s1 := (s.raise (memPlane memsel) 0x10 2 (wordIndex memsel a)).onMem fun m =>
    { m with trackers := updNat m.trackers memsel fun _ => t.1 }
  if t.2 = 3 then
    let s2 := s1.raise (memPlane memsel) 0x12 2 (wordIndex memsel a)
    if memsel ≤ 4 then s2.remapWord memsel a else s2
  else s1

/-- An uncorrectable word: source 0x11 (R254), and R120. -/
def noteUncorrectable (memsel a : Nat) (s : State) : State :=
  let s1 := s.raise (memPlane memsel) 0x11 2 (wordIndex memsel a)
  if memsel = 0 then s1.invalidateSlots a else s1

/-- The sources of a checked read; `reports` for host-window and DMA reads, which alone report the words never written (R253). -/
def noteRead (memsel : Nat) (r : ReadResult) (reports : Bool) (s : State) : State :=
  let s1 := r.corrected.foldl (fun t w => t.noteCorrected memsel w) s
  let s2 := r.uncorrectable.foldl (fun t w => t.noteUncorrectable memsel w) s1
  if reports && s.mem.uwrep then r.unwritten.foldl (fun t w => t.raise (memPlane memsel) 0x14 2 (wordIndex memsel w)) s2 else s2

end State

/-! ## Scrubbing -/

/-- An error of a word entered in a summary (R259). -/
def ScrubSum.count (f : EccResult) (a : Nat) (x : ScrubSum) : ScrubSum :=
  if f = .clean then x
  else
    { x with corr := if f = .corrected then satAdd 0xFFFF x.corr 1 else x.corr
             uncorr := if f = .uncorrectable then satAdd 0xFFFF x.uncorr 1 else x.uncorr
             first := if x.corr = 0 && x.uncorr = 0 then a else x.first, last := a }

/-- What the scrubber's read of a word finds: an uncorrectable byte makes the word uncorrectable, whatever else it holds. -/
def ReadResult.finding (r : ReadResult) : EccResult :=
  if r.uncorrectable != [] then .uncorrectable else if r.corrected != [] then .corrected else .clean

/-- The end of the scrub's words (R257): a local controller's summary is with the MEM block. -/
def Scrub.finish (x : Scrub) : Scrub :=
  { x with active := false, result := if remoteMem x.run.memsel then x.result else some x.run }

/-- The scrub holds at the region under transparent test until that is restored (R258). -/
def MemSys.scrubHolds (m : MemSys) : Bool := m.tt.under = some (m.scrub.run.memsel, m.scrub.next / 256)

/-- The word offsets of a range that may hold an error: those of upset bytes, rising, and those of remap entries. Every other word reads
clean. -/
def MemSys.suspects (m : MemSys) (memsel lo hi : Nat) : List Nat :=
  let words := (m.get memsel).upsets.map (fun c => c.1 / 8 * 8) ++ (m.remap.filter fun r => r.memsel = memsel).map (·.offset)
  (words.foldl insertNat []).filter fun w => lo ≤ w && w < hi

namespace State

/-- The scrubber reads a word (R257): a corrected one awaits its write-back, an uncorrectable one stays as it is, with 0x11 raised once for
the command and R120 on a line-store slot. A word never written or in an off bank reads clean. -/
def scrubRead (a : Nat) (s : State) : State :=
  let k := s.mem.scrub.run.memsel
  let r := s.mem.read k a 8
  let s1 := s.raiseIf (r.corrected != []) (memPlane k) 0x10 2 (wordIndex k a)
  let bad := r.uncorrectable != []
  let s2 := s1.raiseIf (bad && !s.mem.scrub.ueRaised) (memPlane k) 0x11 2 (wordIndex k a)
  (if bad && k = 0 then s2.invalidateSlots a else s2).onMem fun m =>
    { m with scrub := { m.scrub with
        next := a + 8, ueRaised := m.scrub.ueRaised || bad, run := m.scrub.run.count r.finding a
        back := if r.finding = .corrected then some (k, a, r.bytes) else none } }

/-- A corrected word is written back and read again (R257): where the cells do not keep the correction, the second read needs it again, and
the word of a line store or capture RAM is remapped. -/
def scrubBack (k a : Nat) (bytes : List Byte) (s : State) : State :=
  let s1 := s.onMem fun m =>
    let m1 := if s.env.weak.contains (k, a) && (m.remapped k a).isNone then m else m.writeBytes k a bytes
    { m1 with scrub := { m1.scrub with back := none } }
  if (s1.mem.read k a 8).corrected != [] then
    let s2 := s1.raise (memPlane k) 0x10 2 (wordIndex k a)
    if k ≤ 4 then
      let s3 := s2.remapWord k a
      s3.onMem fun m => { m with scrub := { m.scrub with run := { m.scrub.run with
        remapped := m.scrub.run.remapped + (m.remap.length - s2.mem.remap.length) } } }
    else s2
  else s1

/-- The write-back that waits is made. -/
def scrubSettle (s : State) : State :=
  match s.mem.scrub.back with
  | some (k, a, bytes) => s.scrubBack k a bytes
  | none => s

/-- The controller has done its words: its summary goes to the MEM block, over the link from another plane (R245). -/
def scrubFinish (s : State) : State :=
  let s1 := s.onMem fun m => { m with scrub := m.scrub.finish }
  if remoteMem s.mem.scrub.run.memsel then s1.tellMem s.mem.scrub.run.memsel (.scrubbed s.mem.scrub.run) else s1

/-- The controller of a memory has its clock: with its plane. -/
def memClocked (memsel : Nat) (s : State) : Bool := if remoteMem memsel then s.clocked else s.mgmtClocked

/-- One cycle of the scrubber (R257, R258): the write-back of the word in progress, else the end, else the next word's read. -/
def scrubCycle (s : State) : State :=
  let x := s.mem.scrub
  if !x.active || !s.memClocked x.run.memsel then s
  else if x.back.isSome then s.scrubSettle
  else if x.halt || x.limit ≤ x.next then s.scrubFinish
  else if s.mem.scrubHolds then s
  else s.scrubRead x.next

/-- The words of the scrub not yet done, up to a region under test, and the end where none is left. -/
def scrubRest (s : State) : State :=
  let s1 := s.scrubSettle
  let x := s1.mem.scrub
  if x.halt then s1.scrubFinish
  else
    let stop := match s1.mem.tt.under with
      | some (k, b) => if k = x.run.memsel && x.next < b * 256 + 256 then min x.limit (max x.next (b * 256)) else x.limit
      | none => x.limit
    let s2 := (s1.mem.suspects x.run.memsel x.next stop).foldl (fun t a => (t.scrubRead a).scrubSettle) s1
    let s3 := s2.onMem fun m => { m with scrub := { m.scrub with next := max x.next stop } }
    if x.limit ≤ max x.next stop then s3.scrubFinish else s3

end State

/-! ## Banks -/

/-- Bits of the banks a variant has. -/
def presentBanks (v : Variant) : BitVec 16 := BitVec.ofNat 16 (2 ^ v.banks - 1)

/-- Bits of the banks in port regions of an image (R249). -/
def Image.regionBanks (i : Image) : BitVec 16 :=
  i.profiles.foldl (fun b r => b ||| BitVec.ofNat 16 ((2 ^ r.lsBanks - 1) * 2 ^ r.lsFirst)) 0

/-- Bank `n` takes a power state (R249, R253): an off bank loses contents and written bits; a bank that turns on is not ready
until BANK_READY. -/
def MemSys.setBank (n : Nat) (on ret : Bool) (m : MemSys) : MemSys :=
  let was := (elem? m.banks n).getD .off
  let now : BankState := if on then .on else if ret then .retained else .off
  let m1 := if now = .off then { m with lineStore := m.lineStore.lose (n * bankSize) (n * bankSize + bankSize) } else m
  { m1 with banks := updNat m.banks n fun _ => now
            ready := if now = .on then (if was = .on then m.ready else m.ready &&& ~~~(1#16 <<< n)) else m.ready &&& ~~~(1#16 <<< n) }

/-- Every bank takes the state `f` gives it: on, or else retained. -/
def MemSys.setBanks (f : Nat → Bool × Bool) (m : MemSys) : MemSys :=
  (List.range 16).foldl (fun k n => k.setBank n (f n).1 (f n).2) m

/-- The banks take the ON bits of MEM_BANKPWR (at L0 and L1, and at exit step G). -/
def MemSys.applyBanks (m : MemSys) : MemSys := m.setBanks fun n => (m.on.getLsbD n, false)

/-- Entry to L3 (R275): banks with a RET bit are retained, the others go off. -/
def MemSys.retainBanks (m : MemSys) : MemSys := m.setBanks fun n => (false, m.ret.getLsbD n && (elem? m.banks n) == some BankState.on)

/-- Exit step D from L5 (R249, R282): retained banks whose ON bit is set leave retention, the others keep their state. -/
def MemSys.restoreBanks (m : MemSys) : MemSys :=
  m.setBanks fun n =>
    let kept := elem? m.banks n == some BankState.retained
    (kept && m.on.getLsbD n, kept)

/-- Entry to L6 (R275): every bank goes off. -/
def MemSys.dropBanks (m : MemSys) : MemSys := m.setBanks fun _ => (false, false)

/-- A MEM_BANKPWR write (R249): a bank of a port region that would leave on is left unchanged, and CERR sets. -/
def MemSys.writeBankPwr (present region : BitVec 16) (value : Word) (m : MemSys) : MemSys :=
  let on := value.setWidth 16 &&& present
  let ret := (value >>> 16).setWidth 16 &&& present
  let kept := region &&& m.on &&& ~~~on
  { m with on := on ||| kept, ret := (ret &&& ~~~kept) ||| (m.ret &&& kept), cerr := m.cerr || kept != 0 }

end Sys2Proof.Machine
end

