-- ==== Sys2Proof/Machine/AxisOps.lean ====
section
/-!
DEFINITION. The estimator of a position-base axis (R98 to R109): window, position and velocity, settling, edges, excursions.
An axis' COUNT is the count of its feeding sprig and is given to each function.
-/

namespace Sys2Proof.Machine

namespace Axis

/-- Forward distance from count `y` to count `x` (R99); without a forward direction, upward. -/
def ahead (a : Axis) (x y : BitVec 32) : Int := if a.fwd = 2 then (y - x).toInt else (x - y).toInt

/-- Excursion depth: HWM − COUNT in the forward sense (R107). -/
def behind (a : Axis) (count : BitVec 32) : Int := a.ahead a.hwm count

/-- Time of a window edge after the first. -/
def offsetOf (a : Axis) (i : Nat) : Nat :=
  match a.window[i]?, a.window.head? with
  | some e, some f => since e.2 f.2
  | _, _ => 0

/-- The window holds four edges. -/
def full (a : Axis) : Bool := a.window.length = 4

/-- b of R101 in 1/256 step. -/
def b256 (a : Axis) : Nat := (divNearest (256 * (3 * (a.offsetOf 3 : Int) + (a.offsetOf 2 - a.offsetOf 1))) 10).toNat

/-- The window's edges count up. -/
def windowUp (a : Axis) : Bool :=
  match a.window[2]?, a.window[3]? with
  | some e, some f => (f.1 - e.1).toInt ≥ 0
  | _, _ => true

def sign (a : Axis) : Int := if a.windowUp then 1 else -1

/-- The record follows the window: four edges and no excursion (R102, R106). -/
def tracking (a : Axis) : Bool := a.full && a.exc.isNone && a.b256 != 0

/-- Distance of the position beyond 64·c in the window's direction, in 1/64 count: rounded to nearest, ties toward c, clamped to
0 to 63 (R102). -/
def lead (a : Axis) (now : Time48) : Int :=
  let t0 := (a.window.head?.map (·.2)).getD 0
  let q : Int := 4 * since now t0 - (a.offsetOf 1 + a.offsetOf 2 + a.offsetOf 3 : Nat)
  let n : Int := 4096 * q - 96 * a.b256
  clampInt 0 63 (-((a.b256 - 2 * n) / (2 * a.b256)))

/-- Count of the window's latest edge, c of R101. -/
def latest (a : Axis) (count : BitVec 32) : BitVec 32 :=
  match a.window[3]? with
  | some e => e.1
  | none => count

/-- Position in 1/64 count (R102). -/
def position (a : Axis) (count : BitVec 32) (now : Time48) : Int :=
  if a.tracking then 64 * (a.latest count).toInt + a.sign * a.lead now else 64 * count.toInt

/-- VEL in 1/16 count/s (R102). -/
def velocity (a : Axis) : Int := if a.tracking then divNearest (a.sign * 3276800000000) a.b256 else 0

/-- Time since the latest fresh edge, less the excursion completed since (R103). -/
def quiet (a : Axis) (now : Time48) : Nat := (a.lastFresh.map fun t => since now t - a.excDone.toNat).getD 0

/-- Time `t` exceeds k·b. -/
def exceeds (a : Axis) (k t : Nat) : Bool := k * a.b256 < 256 * t

/-- SETTLED (R103, R104). -/
def settled (a : Axis) (now : Time48) : Bool :=
  a.tracking && !a.stalled && !a.exceeds 4 (a.quiet now) && 16 * a.vmin ≤ a.velocity.natAbs

/-- Velocity in the forward direction, 1/16 count/s. -/
def forwardVel (a : Axis) : Int := if a.fwd = 2 then -a.velocity else a.velocity

/-- The window empties (R104). -/
def emptied (a : Axis) : Axis := { a with window := [], unset := true, stalled := false, excDone := 0 }

/-- HWM takes COUNT, any excursion ends, the window empties: a FWD change (R99) and SEAM_RESUME (R160). -/
def rebased (count : BitVec 32) (a : Axis) : Axis := { a.emptied with hwm := count, exc := none }

/-- An applied LOAD of `v` (R104). -/
def loaded (v : BitVec 32) (a : Axis) : Axis := a.rebased v

/-- An illegal transition (R104). -/
def illegal (a : Axis) : Axis := { a.emptied with ill := true }

/-- A fresh edge enters the window; after a stall the axis settles again only by an edge within 4·b of the one before (R104). -/
def fresh (count : BitVec 32) (t : Time48) (a : Axis) : Axis :=
  let still := a.stalled && (a.lastFresh.map fun u => a.exceeds 4 (since t u)).getD true
  let w := a.window ++ [(count, t)]
  { a with window := w.drop (w.length - 4), lastFresh := some t, excDone := 0, stalled := still }

/-- The deepest excursion is recorded (R106). -/
def deepen (count : BitVec 32) (a : Axis) : Axis := { a with depth := max a.depth (min 0xFFFF (a.behind count).toNat) }

/-- The excursion ends: the window's timestamps shift by its duration (R106). -/
def returned (start t : Time48) (a : Axis) : Axis :=
  let d := t - start
  { a with window := a.window.map fun e => (e.1, e.2 + d), exc := none, excDone := a.excDone + d }

/-- An edge on an axis without a forward direction: always fresh; a reversal empties the window first (R102). -/
def edgeFree (up : Bool) (count : BitVec 32) (t : Time48) (a : Axis) : Axis :=
  (if a.window != [] && a.dirUp != up then a.emptied else a).fresh count t

/-- An edge beyond HWM is fresh and advances it. DESIGN CHOICE: so is, after SEAM_HELD has set HWM behind the carriage (R109), a backward
edge that leaves COUNT beyond HWM; HWM takes COUNT (log entry 138). -/
def advance (count : BitVec 32) (t : Time48) (a : Axis) : Axis := ({ a with hwm := count }).fresh count t

/-- An edge on an axis with a forward direction (R106). -/
def edgeForward (count : BitVec 32) (t : Time48) (a : Axis) : Axis :=
  let d := a.behind count
  match a.exc with
  | some t0 => if d < 0 then (a.returned t0 t).advance count t else if d = 0 then a.returned t0 t else a.deepen count
  | none => if d < 0 then a.advance count t else if d = 0 then a else { a with exc := some t }.deepen count

/-- An edge of the feeding sprig, COUNT after it (R98). -/
def edge (up : Bool) (count : BitVec 32) (t : Time48) (a : Axis) : Axis :=
  { (if a.fwd = 0 then a.edgeFree up count t else a.edgeForward count t) with dirUp := up }

/-- POSn_STAT. -/
def statWord (a : Axis) (now : Time48) : Word :=
  pack [(4, 3, a.window.length), flag 2 a.dirUp, flag 1 a.exc.isSome, flag 0 (a.settled now)]

/-- POSn_POSHI. -/
def posHiWord (a : Axis) (count : BitVec 32) (now : Time48) : Word :=
  pack [(16, 16, a.upd.toNat), (0, 8, twos 40 (a.position count now) / 2 ^ 32)]

/-- POSn_POSLO. -/
def posLoWord (a : Axis) (count : BitVec 32) (now : Time48) : Word := BitVec.ofNat 32 (twos 40 (a.position count now) % 2 ^ 32)

/-- The record a POSLO read latches (R102). -/
def latched (a : Axis) (count : BitVec 32) (now : Time48) : AxisLatch :=
  { posHi := a.posHiWord count now, vel := BitVec.ofNat 32 (twos 32 a.velocity), hwm := a.hwm, stat := a.statWord now }

/-- POSn_EVENT. -/
def eventWord (a : Axis) : Word := pack [flag 3 a.ill, flag 2 a.exclong, flag 1 a.stall, flag 0 a.unset]

end Axis

end Sys2Proof.Machine
end

