-- ==== Sys2Proof/Machine/PortOps.lean ====
section
/-!
DEFINITION. Shared operations of a head port: line positions (R110), the causes of a seam and how one starts, joins and asks to
resume (R155 to R163).
-/

namespace Sys2Proof.Machine

/-! ## Axes -/

namespace State

/-- Position of an axis now, 1/64 count. -/
def axisPos (s : State) (n : Fin 8) : Int := (s.axis n).position (s.axisCount n) s.times.fab

/-- The axis record shows SETTLED; an axis that no sprig feeds never does (R98). -/
def axisSettled (s : State) (n : Fin 8) : Bool := (s.axis n).sprig < 96 && (s.axis n).settled s.times.fab

end State

/-! ## Lines -/

/-- The anchor line `n` follows: the latest whose first line is not beyond it, else the oldest. -/
def SosSt.anchorOf (q : SosSt) (n : Int) : Option Anchor :=
  match q.held.filter fun a => decide ((a.first : Int) ≤ n) with
  | [] => q.held.head?
  | l => l.getLast?

/-- Fire position of line `n` from its anchor (R110). -/
def SosSt.linePos (q : SosSt) (r : Profile) (n : Int) : Option Int :=
  (q.anchorOf n).map fun a =>
    let d : Int := q.ofs.toNat + (n - a.first) * r.linePitch
    if r.scan && !a.up then a.pos - d else a.pos + d

/-- The line the port commits next: the resume line in a run-up, else F + 1. -/
def Port.nextLine (q : Port) : Nat := if q.seam.state = 4 then q.seam.res else (q.pdp.f + 1).toNat

/-- The last line of the sweep that holds line `n`. -/
def sweepEnd (lines n : Nat) : Nat := n / lines * lines + lines - 1

/-- The last fire line of the job, once END is known (R128). -/
def Pdp.lastLine (d : Pdp) (r : Profile) : Option Nat := d.endTag.map fun t => if r.scan then t else t + r.sMax

/-- The line is served by an anchor taken and lies within the job. -/
def Port.anchored (q : Port) (r : Profile) (n : Nat) : Bool :=
  match q.sos.anchorOf n with
  | some a => !q.sos.between && a.first ≤ n && (q.sos.lines = 0 || n < a.first + q.sos.lines) &&
      (match q.pdp.lastLine r with
        | some e => n ≤ e
        | none => true)
  | none => false

/-- The tag a row fires at a fire line (R128, R129); none where the row fires nothing. -/
def Port.rowTag (q : Port) (r : Profile) (line row : Nat) : Option Nat :=
  let up := ((q.sos.anchorOf line).map (·.up)).getD true
  let back := if r.scan && !up then r.sMax - r.stag row else r.stag row
  let room := if r.scan then line % q.sos.lines else line
  if back ≤ room && (r.scan || (q.pdp.endTag.map fun t => decide (line - back ≤ t)).getD true) then some (line - back) else none

/-- The tags fire line `n` needs (R121, R128, R129). -/
def Port.tagsOf (q : Port) (r : Profile) (n : Nat) : List Nat := (List.range r.rows).filterMap (q.rowTag r n)

/-- Every tag the line needs is valid (R121). -/
def Port.tagsValid (q : Port) (r : Profile) (n : Nat) : Bool := (q.tagsOf r n).all fun t => q.pdp.valid.contains t

/-! ## Seams -/

/-- The causes of R155. -/
inductive SeamCause where
  | late | shut | supply | sos | rev | unset | ue | pause
  deriving DecidableEq, Repr

/-- The cause's bit of SEAMSTAT set or cleared. -/
def Seam.mark (c : SeamCause) (b : Bool) (m : Seam) : Seam :=
  match c with
  | .late => { m with late := b }
  | .shut => { m with shut := b }
  | .supply => { m with supply := b }
  | .sos => { m with sos := b }
  | .rev => { m with rev := b }
  | .unset => { m with unset := b }
  | .ue => { m with ue := b }
  | .pause => { m with pause := b }

/-- The first line a cause keeps from firing (R156), `stop` being the stop line it names itself: none for the causes whose stop line is
still to be reached; the uncorrectable line (R126); in scan mode the line of the sweep where a shutdown stops it, while a reversal or a
pause lets the sweep reach its boundary (R162); else the line that would commit next. -/
def SeamCause.holdsFrom (scan : Bool) (next : Nat) (stop : Int) : SeamCause → Option Nat
  | .late | .sos => none
  | .ue => some (stop + 1).toNat
  | .supply | .unset => some next
  | .shut => some (if scan then (stop + 1).toNat else next)
  | .rev | .pause => if scan then none else some next

/-- The lower of two first lines held. -/
def minLine : Option Nat → Option Nat → Option Nat
  | some a, some b => some (min a b)
  | none, b => b
  | a, none => a

/-- Causes that keep a port held; UNSET clears with the forward run (R155). -/
def Seam.blocked (m : Seam) : Bool := m.late || m.shut || m.supply || m.sos || m.rev || m.ue || m.pause

/-- HOSTREL: a cause waits for RELEASE. -/
def Seam.hostRel (m : Seam) : Bool := m.pause || m.rev || m.sos

/-- HPTn_SEAMSTAT. -/
def Seam.word (m : Seam) : Word :=
  pack [flag 11 m.hostRel, (8, 3, m.state), flag 7 m.pause, flag 6 m.ue, flag 5 m.unset, flag 4 m.rev, flag 3 m.sos,
    flag 2 m.supply, flag 1 m.shut, flag 0 m.late]

/-- A seam starts with its stop line and that line's fire position (R156). -/
def Seam.start (line fpos : Int) (m : Seam) : Seam :=
  { m.ended with state := 1, line := line, fpos := fpos, count := satAdd 0xFFFF m.count 1, res := 0, grp := 0 }

/-- The resume point follows the lines that fire (R159). -/
def Port.noteResume (q : Port) : Port := { q with seam := { q.seam with res := (q.pdp.fired + 1).toNat } }

namespace State

/-- SEAM_STOP goes to the control plane with the stop line in force. -/
def sendStop (p : Fin 4) (s : State) : State :=
  let m := (s.port p).seam
  s.sendSeam true typeSeamStop m.tag p false m.fpos

/-- A seam of the port starts at a stop line. -/
def beginSeam (p : Fin 4) (line : Int) (s : State) : State :=
  let x := (s.port p).sos.linePos (s.prof p) line
  let s1 := s.onPort p fun q =>
    { q with seam := q.seam.start line (x.getD (Config.unanchored s.free)) }.noteResume
  (if x.isNone then s1.bumpFree else s1).sendStop p

/-- A cause during the run-up: the stop line stays, SEAM_STOP goes again and STATE returns to 1 (R163); nothing fires from the resume
line on. -/
def rejoinSeam (p : Fin 4) (s : State) : State :=
  (s.onPort p fun q => { q with seam := { q.seam with state := 1, resumed := false, stopFrom := some q.seam.res } }).sendStop p

/-- The other armed ports of the axis follow: a port without a seam stops at its last committed line, with no cause of its own, and
one in its run-up stops again (R163). -/
def spreadSeam (p : Fin 4) (s : State) : State :=
  portNumbers.foldl (fun t k =>
    if k != p && (t.port k).arm.armed && (t.profile k).any (fun r => some r.axis = (t.profile p).map (·.axis)) then
      if (t.port k).seam.state = 0 then t.beginSeam k (t.port k).pdp.f
      else if (t.port k).seam.state = 4 then t.rejoinSeam k else t
    else t) s

/-- A cause starts the port's own seam at a stop line, or joins the one in progress (R155, R156, R163). -/
def ownCause (p : Fin 4) (c : SeamCause) (line : Int) (s : State) : State :=
  let q := s.port p
  if q.arm.armed && (s.profile p).isSome then
    let held := c.holdsFrom (s.prof p).scan q.nextLine line
    (if q.seam.state = 0 then s.beginSeam p line else if q.seam.state = 4 then s.rejoinSeam p else s).onPort p fun k =>
      { k with seam := { k.seam.mark c true with stopFrom := minLine k.seam.stopFrom held } }
  else s

/-- A cause of a port, and what it makes of the other ports of the axis where a seam starts or stops again (R163). -/
def seamCause (p : Fin 4) (c : SeamCause) (line : Int) (s : State) : State :=
  let q := s.port p
  let t := s.ownCause p c line
  if q.arm.armed && (s.profile p).isSome && (q.seam.state = 0 || q.seam.state = 4) then t.spreadSeam p else t

/-- The stop line of a host pause: in page mode the last committed line, in scan mode the end of the sweep in progress (R155,
R162). -/
def boundaryLine (p : Fin 4) (s : State) : Int :=
  let q := s.port p
  if (s.prof p).scan && !q.sos.between && q.sos.held != [] && q.sos.lines != 0 then sweepEnd q.sos.lines q.nextLine
  else q.pdp.f

/-- The ahead margin is at least RESUME_TH, or the END line is valid. -/
def marginRestored (p : Fin 4) (s : State) : Bool :=
  match (s.port p).pdp.margin (s.prof p).sMax with
  | some m => (s.prof p).resumeTh ≤ m
  | none => true

/-- Tags from R − S_max to R + RESUME_TH − 1 that exist and are not valid (R158). -/
def resumeTagsMissing (p : Fin 4) (s : State) : List Nat :=
  let q := s.port p
  let r := s.prof p
  let lo := q.seam.res - r.sMax
  let hi := q.seam.res + r.resumeTh
  (List.range (hi - lo)).filterMap fun k =>
    let t := lo + k
    if !q.pdp.valid.contains t && (q.pdp.endTag.map fun e => decide (t ≤ e)).getD true then some t else none

/-- What the port does as a seam's conditions change: LATE clears with the margin; a held port without causes asks for the tags it
lacks, or sends SEAM_RESUME (R158). -/
def pollSeam (p : Fin 4) (s : State) : State :=
  let s1 := if s.marginRestored p then s.onPort p fun k => { k with seam := k.seam.mark .late false } else s
  let q := s1.port p
  if q.arm.armed && q.seam.state = 3 && !q.seam.resumed && !q.seam.blocked && s1.marginRestored p && q.pdp.wanted = [] then
    match s1.resumeTagsMissing p with
    | [] => (s1.onPort p fun k => { k with seam := { k.seam with resumed := true } }).sendSeam true typeSeamResume
        q.seam.tag p false q.seam.fpos
    | l => s1.onPort p fun k => { k with pdp := { k.pdp with wanted := l } }
  else s1

end State

end Sys2Proof.Machine
end

