-- ==== Sys2Proof/Machine/Assembly.lean ====
section
/-!
DEFINITION. The line assembler and mask unit (R127 to R137): which nozzle each dot goes to, the lane bits of a fire line, the mask set
in force for a tag, dots that no nozzle can place.
-/

namespace Sys2Proof.Machine

/-! ## Tables in the port's region (R118) -/

/-- Field `i` of `width` bits in the line store from byte `base`, least significant first. -/
def MemSys.lsField (m : MemSys) (base i width : Nat) : Nat :=
  bitsOf (m.readByte 0 (base + i * width / 8)).1.toNat (i * width % 8) width

/-- The drop code of position `j` in group `c` of the line stored for a tag (R119). -/
def MemSys.dropCode (m : MemSys) (r : Profile) (tag c j : Nat) : Nat := m.lsField (r.slotAt tag) (c * r.npr + j) r.bits

/-- Bytes of a slot that the assembler reads (R119). -/
def Profile.codeBytes (r : Profile) : Nat := ceilDiv (r.groups * r.npr * r.bits) 8

/-- Entry (a, e) of a mask pattern (R132). -/
def MemSys.maskEntry (m : MemSys) (r : Profile) (pattern a e : Nat) : Nat :=
  m.lsField (r.region + 0x8000 + pattern * 0x800 + 32 * a) e 4

/-- A nozzle that a health map copy does not mark missing (R137). -/
def MemSys.healthy (m : MemSys) (r : Profile) (map : Bool) (n : Nat) : Bool := m.lsField (r.region + 0x800 * map.toNat) n 1 = 0

/-- The code sent for a level by a nozzle of a row (R130). -/
def MemSys.headCode (m : MemSys) (r : Profile) (row level : Nat) : Nat :=
  let g := m.lsField (r.region + 0x1000) row 8
  if r.bits = 2 && g.testBit 7 && level != 0 then bitsOf g (2 * (level - 1)) 2 else level

/-! ## Mask sets (R136) -/

/-- The mask selection and health map copy for lines of a tag. -/
def Pdp.setFor (d : Pdp) (tag : Nat) : Word × Bool := if tag < d.switchTag then (d.prevSel, d.prevMap) else (d.maskact, d.mapset)

/-- The pattern a selection gives a group. -/
def patternOf (sel : Word) (c : Nat) : Nat := fld sel (4 * c) 4

/-- The first fire line that uses a line of tag `t` or later. -/
def Profile.firstUse (r : Profile) (t : Nat) : Nat := if r.scan then t else t + r.sMin

/-- The last fire line that uses the set before tag `t`. -/
def Profile.lastUse (r : Profile) (lines adv ilace t : Nat) : Int :=
  if r.scan then ((t / lines + ceilDiv (r.npr * ilace) adv : Nat) : Int) * lines - 1 else (t : Int) - 1 + r.sMax

/-- A set takes effect. -/
def Pdp.applySet (sel : Word) (swap : Bool) (d : Pdp) : Pdp := { d with maskact := sel, mapset := d.mapset ^^ swap, pend := none }

/-- The pending set applies once the assembler reaches its tag. -/
def Pdp.reachSet (r : Profile) (lines line : Nat) (d : Pdp) : Pdp :=
  match d.pend with
  | some m =>
    if r.firstUse m.tag ≤ line then
      let last := r.lastUse lines d.adv d.ilace m.tag
      { d.applySet m.sel m.swap with switchTag := m.tag, prevSel := d.maskact, prevMap := d.mapset, hmEnd := last
                                     hmbusy := decide (d.fired < last) }
    else d
  | none => d

/-! ## Placing dots (R132 to R135) -/

/-- Where a dot goes: nowhere by its mask or for want of a drop, to a row or sweep, or unplaceable. -/
inductive Dot where
  | absent
  | goes (k : Nat)
  | unplaceable
  deriving DecidableEq, Repr

/-- The first of `n` choices in cyclic order from `m` that is healthy. -/
def choose (ok : Nat → Bool) (n m : Nat) : Dot :=
  match ((List.range n).map fun k => (m + k) % n).find? ok with
  | some k => .goes k
  | none => .unplaceable

/-- A page-mode dot: its row within the group (R133). -/
def MemSys.pageDot (m : MemSys) (r : Profile) (d : Pdp) (tag c j : Nat) : Dot :=
  let set := d.setFor tag
  let v := m.maskEntry r (patternOf set.1 c) (tag % 64) (j % 64)
  if m.dropCode r tag c j = 0 || 8 ≤ v then .absent
  else choose (fun k => m.healthy r set.2 ((c * r.redund + k) * r.npr + j)) r.redund (v % r.redund)

/-- The sweeps that cover the image row `u` rows below Y0, rising (R134). -/
def Profile.covering (r : Profile) (adv ilace u : Nat) : List Nat :=
  (List.range (u / adv + 1)).filter fun t => let d := u - t * adv; decide (d < r.npr * ilace) && d % ilace = 0

/-- A scan-mode dot of nozzle `k` of row `c` in sweep `sw`, at column `x`: the sweep that fires it, and the m-th covering sweep, which
counts it where it is unplaceable (R134, R135). -/
def MemSys.scanDot (m : MemSys) (r : Profile) (d : Pdp) (lines tag sw x c k : Nat) : Dot × Nat :=
  let u := sw * d.adv + k * d.ilace
  let cov := r.covering d.adv d.ilace u
  let set := d.setFor (cov.headD 0 * lines)
  let v := m.maskEntry r (patternOf set.1 c) ((d.scany0 + u) % 64).toNat (x % 64)
  let first := v % cov.length
  if m.dropCode r tag c k = 0 || 8 ≤ v || cov = [] then (.absent, 0)
  else
    let nozzle (i : Nat) := c * r.npr + (u - cov.getD i 0 * d.adv) / d.ilace
    match choose (fun i => m.healthy r set.2 (nozzle i)) cov.length first with
    | .goes i => (.goes (cov.getD i 0), cov.getD first 0)
    | o => (o, cov.getD first 0)

/-- The image column of a scan-mode tag (R129). -/
def Port.column (q : Port) (line tag : Nat) : Nat :=
  let i := tag % q.sos.lines
  if ((q.sos.anchorOf line).map (·.up)).getD true then i else q.sos.lines - 1 - i

/-- The head codes, other than 0, of a row at a fire line. -/
def MemSys.rowCodes (m : MemSys) (q : Port) (r : Profile) (line row : Nat) : List (Nat × Nat) :=
  match q.rowTag r line row with
  | none => []
  | some tag =>
    let c := if r.scan then row else row / r.redund
    (List.range r.npr).filterMap fun j =>
      let fires := if r.scan then
          (m.scanDot r q.pdp q.sos.lines tag (line / q.sos.lines) (q.column line tag) c j).1 = .goes (line / q.sos.lines)
        else m.pageDot r q.pdp tag c j = .goes (row % r.redund)
      let code := m.headCode r row (m.dropCode r tag c j)
      if fires && code != 0 then some (row * r.npr + j, code) else none

/-- The dots found unplaceable at the first assembly of a fire line, by the tag they count against (R135). -/
def MemSys.unplaceable (m : MemSys) (q : Port) (r : Profile) (line : Nat) : List (Nat × Nat) :=
  (List.range r.groups).filterMap fun c =>
    if r.scan then
      (q.rowTag r line c).map fun tag => (tag, ((List.range r.npr).filter fun k =>
        m.scanDot r q.pdp q.sos.lines tag (line / q.sos.lines) (q.column line tag) c k = (.unplaceable, line / q.sos.lines)).length)
    else
      let least := ((List.range r.redund).map fun k => r.stag (c * r.redund + k)).foldl min (r.stag (c * r.redund))
      if least ≤ line && (q.pdp.endTag.map fun t => decide (line - least ≤ t)).getD true then
        some (line - least, ((List.range r.npr).filter fun j => m.pageDot r q.pdp (line - least) c j = .unplaceable).length)
      else none

/-! ## Lane bits (R131) -/

/-- The nozzle in slot `q` of a lane. -/
def Profile.nozzleAt (r : Profile) (blocked : Bool) (lane slot : Nat) : Option Nat :=
  let per := ceilDiv r.nozzles r.lanes
  let n := if blocked then lane * per + slot else slot * r.lanes + lane
  if slot < per && n < r.nozzles then some n else none

/-- The bit at a shift position of a lane. -/
def Profile.laneBit (r : Profile) (blocked planar : Bool) (codes : List (Nat × Nat)) (lane pos : Nat) : Bool :=
  let per := ceilDiv r.nozzles r.lanes
  let at' : Nat × Nat :=
    if r.bits = 1 then (pos, 0) else if planar then (if pos < per then (pos, 1) else (pos - per, 0)) else (pos / 2, 1 - pos % 2)
  match r.nozzleAt blocked lane at'.1 with
  | some n => ((codes.find? fun x => x.1 = n).map fun x => x.2.testBit at'.2).getD false
  | none => false

/-- The bits of a lane in shift order. -/
def Profile.laneBits (r : Profile) (blocked planar : Bool) (codes : List (Nat × Nat)) (lane : Nat) : List Bool :=
  let l := (List.range r.shiftLen).map (r.laneBit blocked planar codes lane)
  if r.clk.testBit 4 then l.reverse else l

/-- The fire line's codes, those of column groups before `from` blank (R159). -/
def MemSys.assemble (m : MemSys) (q : Port) (r : Profile) (line fromGroup : Nat) : AsmLine :=
  let codes := ((List.range r.rows).flatMap fun row => m.rowCodes q r line row).filter fun x => decide (fromGroup ≤ x.1 % r.npr / 64)
  { line, codes, lanes := (List.range r.lanes).map (r.laneBits q.pdp.order q.pdp.grey codes) }

/-! ## Assembling a line -/

/-- What the assembler and mask unit read for a fire line: stored lines, maps, greyscale bytes, pattern rows. -/
def Port.readRanges (q : Port) (r : Profile) (line : Nat) : List (Nat × Nat) :=
  let tags := (List.range r.rows).filterMap (q.rowTag r line)
  let copies := if q.pdp.hmbusy then [q.pdp.mapset, q.pdp.prevMap] else [q.pdp.mapset]
  let rows (c tag : Nat) : Nat × Nat :=
    let p := r.region + 0x8000 + patternOf (q.pdp.setFor tag).1 c * 0x800
    if r.scan then (p, 0x800) else (p + 32 * (tag % 64), 32)
  tags.map (fun t => (r.slotAt t, r.codeBytes)) ++ copies.map (fun b => (r.region + 0x800 * b.toNat, ceilDiv r.nozzles 8)) ++
    (if r.bits = 2 then [(r.region + 0x1000, r.rows)] else []) ++
    (List.range r.groups).flatMap fun c => tags.map (rows c)

namespace State

/-- The count of a tag's dots goes to the record of the descriptor that carried it (R135). -/
def countUnplaceable (p : Fin 4) (tag n : Nat) (s : State) : State :=
  let s1 := s.onPort p fun q => { q with pdp := { q.pdp with unpl := satAdd 0xFFFFFFFF q.pdp.unpl n } }
  match (s.port p).pdp.channel.bind (fin? 64) with
  | some c => s1.onChan c fun k => { k with owed := k.owed.map fun o =>
      if o.print && o.desc.tag ≤ tag && tag ≤ o.lastTag then { o with count := satAdd 0xFFFFFFFF o.count n } else o }
  | none => s1

/-- An uncorrectable byte read for a fire line (R126): nothing fires from it on; the port asks for the invalid tags. -/
def lineUncorrectable (p : Fin 4) (line : Nat) (s : State) : State :=
  (s.seamCause p .ue ((line : Int) - 1)).onPort p fun q =>
    { q with pdp := { q.pdp with wanted := (q.tagsOf (s.prof p) line).filter fun t => !q.pdp.valid.contains t } }

/-- Assemble a fire line (R128 to R136). -/
def assembleLine (p : Fin 4) (line : Nat) (s : State) : State :=
  let r := s.prof p
  let s0 := s.onPort p fun q => { q with pdp := q.pdp.reachSet r q.sos.lines line }
  let reads := ((s0.port p).readRanges r line).map fun x => (x.1, s0.mem.read 0 x.1 x.2)
  let s1 := reads.foldl (fun t x => t.noteRead 0 x.2 false) s0
  if reads.any fun x => x.2.uncorrectable != [] then s1.lineUncorrectable p line
  else
    let q := s1.port p
    let fromGroup := if q.seam.state = 4 && line = q.seam.res then q.seam.grp else 0
    let built := s1.mem.assemble q r line fromGroup
    let s2 := if q.pdp.counted < line then
        (s1.mem.unplaceable q r line).foldl (fun t x => if x.2 = 0 then t else t.countUnplaceable p x.1 x.2) s1
      else s1
    s2.onPort p fun k =>
      { k with pdp := { k.pdp with asm := (k.pdp.asm.filter fun a => a.line != line) ++ [built], assembled := line
                                   counted := max k.pdp.counted line } }

end State

end Sys2Proof.Machine
end

