-- ==== Sys2Proof/Machine/Sha256.lean ====
section
/-!
DEFINITION. SHA-256 (FIPS 180-4) and HMAC-SHA-256 (RFC 2104), which R175 and R179 name for the head's response and the usage
record. Byte strings are lists; a 256-bit value is its 32 bytes, byte 0 first.
-/

namespace Sys2Proof.Machine.Sha

/-- The first 64 primes, from which FIPS 180-4 takes its constants. -/
def primes : List Nat := (List.range 312).filter fun n => 2 ≤ n && (List.range n).all fun d => d < 2 || n % d != 0

/-- The largest number below 2 ^ bits whose `e`-th power is at most `x`, found bit by bit from `r`. -/
def rootFrom (e x : Nat) : Nat → Nat → Nat
  | 0, r => r
  | bits + 1, r => rootFrom e x bits (if (r + 2 ^ bits) ^ e ≤ x then r + 2 ^ bits else r)

/-- The first 32 bits of the fractional part of the `e`-th root of `p`. -/
def rootFraction (e p : Nat) : BitVec 32 := BitVec.ofNat 32 (rootFrom e (p * 2 ^ (32 * e)) 40 0)

/-- The round constants (FIPS 180-4, section 4.2.2): of the cube roots of the first 64 primes. -/
def k : List (BitVec 32) := primes.map (rootFraction 3)

structure Hash where
  a : BitVec 32
  b : BitVec 32
  c : BitVec 32
  d : BitVec 32
  e : BitVec 32
  f : BitVec 32
  g : BitVec 32
  h : BitVec 32
  deriving DecidableEq, Repr

/-- The initial value (section 5.3.3): of the square roots of the first eight primes. -/
def init : Hash :=
  let r (i : Nat) := rootFraction 2 (primes.getD i 0)
  { a := r 0, b := r 1, c := r 2, d := r 3, e := r 4, f := r 5, g := r 6, h := r 7 }

def rotr (x : BitVec 32) (n : Nat) : BitVec 32 := x.rotateRight n

/-- The message schedule, newest word first: 16 words of the block, then 48 more. -/
def schedule : Nat → List (BitVec 32) → List (BitVec 32)
  | 0, w => w
  | n + 1, w =>
    let at' (i : Nat) : BitVec 32 := w.getD (i - 1) 0
    let s0 := rotr (at' 15) 7 ^^^ rotr (at' 15) 18 ^^^ (at' 15 >>> 3)
    let s1 := rotr (at' 2) 17 ^^^ rotr (at' 2) 19 ^^^ (at' 2 >>> 10)
    schedule n ((at' 16 + s0 + at' 7 + s1) :: w)

def round (s : Hash) (kw : BitVec 32 × BitVec 32) : Hash :=
  let s1 := rotr s.e 6 ^^^ rotr s.e 11 ^^^ rotr s.e 25
  let ch := (s.e &&& s.f) ^^^ (~~~s.e &&& s.g)
  let t1 := s.h + s1 + ch + kw.1 + kw.2
  let s0 := rotr s.a 2 ^^^ rotr s.a 13 ^^^ rotr s.a 22
  let maj := (s.a &&& s.b) ^^^ (s.a &&& s.c) ^^^ (s.b &&& s.c)
  ⟨t1 + (s0 + maj), s.a, s.b, s.c, s.d + t1, s.e, s.f, s.g⟩

/-- One 64-byte block as 16 big-endian words. -/
def compress (s : Hash) (block : List (BitVec 32)) : Hash :=
  let r := (k.zip (schedule 48 block.reverse).reverse).foldl round s
  ⟨s.a + r.a, s.b + r.b, s.c + r.c, s.d + r.d, s.e + r.e, s.f + r.f, s.g + r.g, s.h + r.h⟩

def beWord (b : List Byte) : BitVec 32 := BitVec.ofNat 32 (b.foldl (fun n x => n * 256 + x.toNat) 0)

def beBytes : (n : Nat) → Nat → List Byte
  | 0, _ => []
  | n + 1, v => BitVec.ofNat 8 (v / 256 ^ n) :: beBytes n v

/-- The big-endian words of a byte list, `n` of them. -/
def words : Nat → List Byte → List (BitVec 32)
  | 0, _ => []
  | n + 1, b => beWord (b.take 4) :: words n (b.drop 4)

def blocks : Nat → List Byte → Hash → Hash
  | 0, _, s => s
  | n + 1, b, s => blocks n (b.drop 64) (compress s (words 16 (b.take 64)))

/-- The padded message: 0x80, zeros, the length in bits in 8 bytes. -/
def padded (m : List Byte) : List Byte :=
  let zeros := (119 - m.length % 64) % 64
  m ++ 0x80 :: List.replicate zeros 0 ++ beBytes 8 (8 * m.length)

/-- SHA-256 of a byte string: 32 bytes. -/
def sha256 (m : List Byte) : List Byte :=
  let p := padded m
  let s := blocks (p.length / 64) p init
  [s.a, s.b, s.c, s.d, s.e, s.f, s.g, s.h].flatMap fun w => beBytes 4 w.toNat

/-- HMAC-SHA-256 with a 32-byte key (RFC 2104). -/
def hmac (key m : List Byte) : List Byte :=
  let k0 := key ++ List.replicate (64 - key.length) 0
  let pad (x : Byte) := k0.map (· ^^^ x)
  sha256 (pad 0x5c ++ sha256 (pad 0x36 ++ m))

end Sys2Proof.Machine.Sha
end

