-- ==== Sys2Proof/Machine/HeadOps.lean ====
section
/-!
DEFINITION. Shared operations of a head and its memory (R172 to R181): acceptance, the drop count, usage records and their commits,
the data plane's answer that waits for them (R181).
-/

namespace Sys2Proof.Machine

/-! ## Records -/

/-- K_head of a port (R175). -/
def Head.headKey (k : BitVec 256) (h : Head) : List Byte :=
  Sha.hmac (leBytes 32 k.toNat) ([0x48, 0x45, 0x41, 0x44] ++ leBytes 8 h.id.toNat)

/-- RESPONSE as the head's memory must hold it (R175). -/
def Head.expectedResponse (k : BitVec 256) (h : Head) : List Byte :=
  Sha.hmac (h.headKey k) ([0x43, 0x48, 0x41, 0x4C] ++ leBytes 32 h.challenge.toNat ++ leBytes 8 h.id.toNat)

/-- MAC of a usage record's first 32 bytes (R179). -/
def Head.recordMac (k : BitVec 256) (h : Head) (body : List Byte) : List Byte :=
  Sha.hmac (h.headKey k) ([0x55, 0x53, 0x47, 0x45] ++ body)

/-- A usage record (R179). -/
def Head.usageRecord (k : BitVec 256) (h : Head) (port cause drops : Nat) (seq : BitVec 32) : BitVec 512 :=
  let body := leBytes 4 seq.toNat ++ leBytes 8 h.id.toNat ++ leBytes 6 drops ++ leBytes 1 port ++ leBytes 1 cause ++ leBytes 12 0
  BitVec.ofNat 512 (leNat (body ++ h.recordMac k body))

/-- A slot is valid: its MAC verifies and its HEAD_ID matches (R179). -/
def Head.slotValid (k : BitVec 256) (h : Head) (slot : BitVec 512) : Bool :=
  let b := leBytes 64 slot.toNat
  slot.extractLsb' 32 64 == h.id && b.drop 32 == h.recordMac k (b.take 32)

/-- A slot is blank: all 64 bytes are 0xFF (R179). -/
def slotBlank (slot : BitVec 512) : Bool := slot == BitVec.allOnes 512

def slotSeq (slot : BitVec 512) : BitVec 32 := slot.extractLsb' 0 32
def slotDrops (slot : BitVec 512) : Nat := (slot.extractLsb' 96 48).toNat

namespace State

/-- The keep-RAM usage entry of a port takes its head's counts (R178). -/
def keepUsage (p : Fin 4) (s : State) : State :=
  let h := (s.port p).head
  s.onMem fun m => { m with usage := upd m.usage p fun _ => some (h.id, h.drops, h.useq) }

/-! ## Usage commits -/

/-- A usage commit starts (R180): the record of the present count goes to the slot that does not hold the higher SEQ. -/
def startUsage (p : Fin 4) (cause : Nat) (s : State) : State :=
  s.onPort p fun q =>
    let h := q.head
    match h.keyStore with
    | some k =>
      let seq := h.useq + 1
      let op : UsageOp := { cause, seq, drops := h.drops, slotB := !h.newestB, record := h.usageRecord k p.val cause h.drops seq }
      { q with head := { h with usage := some op } }
    | none => q

/-- A trigger of R180; one that meets a commit marks one commit pending, and further ones join it (R181). -/
def triggerUsage (p : Fin 4) (cause : Nat) (s : State) : State :=
  let h := (s.port p).head
  if h.accepted && !h.opened then
    if h.usage.isSome then
      s.onPort p fun q => { q with head := { q.head with usagePend := some (q.head.usagePend.getD cause) } }
    else s.startUsage p cause
  else s

/-- Drops issued by a port's strobes (R178); each full 2^20 triggers a commit (R180). -/
def countDrops (p : Fin 4) (n : Nat) (s : State) : State :=
  let before := (s.port p).head.drops
  let now := satAdd (2 ^ 48 - 1) before n
  let s1 := (s.onPort p fun q => { q with head := { q.head with drops := now } }).keepUsage p
  if before / 2 ^ 20 < now / 2 ^ 20 then s1.triggerUsage p 1 else s1

/-- The data plane is quiet: every port disarmed, no health test running (R26). -/
def dataQuiet (s : State) : Bool := s.ports.toList.all fun q => !q.arm.armed && !q.test.busy

/-- The control plane is quiet: every slot parked or holding (R26). -/
def controlQuiet (s : State) : Bool :=
  s.cores.toList.all fun c => c.slots.toList.all fun x => x.state != .running

/-- A plane's answer, and the reason it refuses with (R279). -/
def answerOf (plane : Plane) (s : State) : QAnswer :=
  match plane with
  | .control => s.quiesce.control
  | .data => s.quiesce.data
  | .management => .idle
def refuseReason (plane : Plane) : Nat := if plane = .data then 2 else 3

/-- A plane's answer becomes another. -/
def setAnswer (plane : Plane) (a : QAnswer) (s : State) : State :=
  s.onQuiesce fun q => match plane with
    | .control => { q with control := a }
    | .data => { q with data := a }
    | .management => q

/-- A plane sends its answer (R26): TYPE 0x31, or TYPE 0x32 with the reason. -/
def sendAnswer (plane : Plane) (quiet : Bool) (s : State) : State :=
  (s.setAnswer plane (if quiet then .confirmed else .refused (refuseReason plane))).sendFields (toManagement plane)
    (if quiet then typeQuiesceYes else typeQuiesceNo) (if quiet then [] else [refuseReason plane])

/-- A waiting answer of the data plane goes once no port waits for its descent commit (R181). -/
def settleDescent (s : State) : State :=
  if s.quiesce.data == .waiting && s.ports.toList.all (fun q => !q.head.descentWait) then s.sendAnswer .data s.dataQuiet else s

/-- A plane that leaves quiescence before the gate lines act sends TYPE 0x32 (R26). -/
def leaveQuiet (plane : Plane) (s : State) : State :=
  let a := s.answerOf plane
  if s.quiesce.purpose == .descent && (a == .confirmed || a == .recorded) then s.sendAnswer plane false else s

end State

/-! ## The sideband (R172) -/

/-- A transaction at the head memory: the device address and rate of HCTRL, and from a head address the bytes written or how many are
read. -/
def Head.txn (h : Head) (address : Nat) (written : List Byte) (reads : Nat) : SbTxn :=
  { device := h.sbaddr, fast := h.sb400, sent := BitVec.ofNat 8 (address / 256) :: BitVec.ofNat 8 address :: written, reads := reads }

/-- A poll of the head memory: its device address alone (log entry 143). -/
def Head.pollTxn (h : Head) : SbTxn := { device := h.sbaddr, fast := h.sb400, sent := [], reads := 0 }

/-- A transaction is acknowledged at last (R172): a try not acknowledged is repeated up to 3 times, one with SCL stuck ends it. -/
def acknowledged (tries : List SbTry) : Bool := ((tries.take 4).find? (· != .nak)) == some .ack

/-- The transactions of a step on the port's sideband. -/
def State.onBus (p : Fin 4) (l : Head → List SbTxn) (s : State) : State := s.onPort p fun q => { q with head := { q.head with bus := l q.head } }

/-! ## Acceptance -/

/-- The identity the port reads as its acceptance starts (R175). -/
def Head.identify (id : BitVec 64) (hformat nozzles : BitVec 16) (h : Head) : Head :=
  { h with id := id, hformat := hformat, nozzles := nozzles, identified := true }

namespace State

/-- Acceptance starts (R175): bytes 0x0000 to 0x000B are read, RESP_READY is cleared and a fresh CHALLENGE written (log entries 5,
92). -/
def startAcceptance (p : Fin 4) (s : State) : State :=
  let c := Config.entropy s.free
  ((s.onPort p fun q =>
    { q with head := { q.head with abusy := true, identified := false, challenge := c, pollsLeft := 100, ready := false } }).onBus p fun h =>
      [h.txn 0x0000 [] 12, h.txn 0x0040 [0] 0, h.txn 0x0020 (leBytes 32 c.toNat) 0]).bumpFree

end State

/-- The first AUTHRES of R176 that applies; none while the head may still answer. -/
def Head.result (r : Profile) (response : BitVec 256) (slotA slotB : BitVec 512) (h : Head) : Option Nat :=
  match h.keyStore with
  | none => some 4
  | some k =>
    if h.hformat != 1 then some 6
    else if h.nozzles.toNat != r.nozzles then some 7
    else if !h.ready then (if h.pollsLeft = 0 then some 3 else none)
    else if leBytes 32 response.toNat != h.expectedResponse k then some 2
    else if !h.slotValid k slotA && !h.slotValid k slotB && !(slotBlank slotA && slotBlank slotB) then some 5
    else some 1

/-- DROPS, USEQ and the slot with the higher SEQ that an accepted head starts with (R179); with both slots blank the first record goes
to slot A (log entry 23). -/
def Head.loadUsage (k : BitVec 256) (entry : Option (BitVec 64 × Nat × BitVec 32)) (slotA slotB : BitVec 512) (h : Head) : Head :=
  let a := h.slotValid k slotA
  let b := h.slotValid k slotB
  let newestB := if a && b then (slotSeq slotA).toNat < (slotSeq slotB).toNat else !a
  let seq : BitVec 32 := if a || b then slotSeq (if newestB then slotB else slotA) else 0
  let drops := if a || b then slotDrops (if newestB then slotB else slotA) else 0
  match entry with
  | some e =>
    if e.1 = h.id then
      { h with drops := max drops e.2.1, useq := if seq.toNat < e.2.2.toNat then e.2.2 else seq, newestB := newestB }
    else { h with drops := drops, useq := seq, newestB := newestB }
  | none => { h with drops := drops, useq := seq, newestB := newestB }

/-- An open head counts on from a matching keep-RAM entry, or from 0 (R179). -/
def Head.loadOpen (entry : Option (BitVec 64 × Nat × BitVec 32)) (h : Head) : Head :=
  match entry with
  | some e => if e.1 = h.id then { h with drops := e.2.1, useq := e.2.2 } else { h with drops := 0, useq := 0 }
  | none => { h with drops := 0, useq := 0 }

/-- HPTn_HSTAT. -/
def Head.statWord (h : Head) : Word :=
  pack [(16, 8, h.authres), flag 7 h.cerr, flag 6 h.usage.isSome, flag 5 h.abusy, flag 4 h.opened, flag 3 h.accepted,
    flag 2 h.present]

end Sys2Proof.Machine
end

