-- ==== Sys2Proof/Machine/Firing.lean ====
section
/-!
DEFINITION. Shared operations of firing: the strobe width (R146 to R149), strobes that are not issued (R151, R160), the head's
temperature levels (R152, R171), the health test (R138 to R141).
-/

namespace Sys2Proof.Machine

/-! ## Strobe width -/

/-- An energy set a commit accepts (R149). -/
def EnergySet.ok (e : EnergySet) : Bool := e.step != 0 && e.e != 0 && e.f.toList.all (· != 0)

/-- The pending energy set becomes active (R149). -/
def Fire.takeEnergy (f : Fire) : Fire :=
  match f.pend with
  | some e => { f with act := e, pend := none, set := !f.set }
  | none => f

/-- f(T) of R148 as a fraction, T in 1/16 °C. -/
def EnergySet.factor (e : EnergySet) (t : Int) : Nat × Nat :=
  let gap := 16 * e.step
  let x := (t - 16 * e.base).toNat
  let entry (i : Nat) := (elem? e.f i).getD 0
  if t ≤ 16 * e.base || gap = 0 then (entry 0, 4096)
  else if 7 * gap ≤ x then (entry 7, 4096)
  else (entry (x / gap) * (gap - x % gap) + entry (x / gap + 1) * (x % gap), 4096 * gap)

/-- W of R146 in ns, unrounded, as a fraction; V is vNum/vDen volts, `pct` scales the energy. -/
def widthOf (e : EnergySet) (rh vNum vDen : Nat) (t : Int) (pct : Nat) : Nat × Nat :=
  let f := e.factor t
  (e.e * rh * vDen * vDen * f.1 * pct, 100 * 100 * vNum * vNum * f.2)

/-- The port's width state after a line's or test cycle's width is computed: clamped to STB_MIN to STB_MAX with its counts, then
rounded to steps of 1.25 ns, ties up (R146). -/
def Fire.computeWidth (r : Profile) (t : Int) (pct : Nat) (f : Fire) : Fire :=
  let w := widthOf f.act r.rh f.vNum f.vDen t pct
  if f.vNum = 0 || r.stbMax * w.2 < w.1 then
    { f with width := (divNearest (4 * r.stbMax) 5).toNat, clampHi := satAdd 0xFFFF f.clampHi 1 }
  else if w.1 < r.stbMin * w.2 then
    { f with width := (divNearest (4 * r.stbMin) 5).toNat, clampLo := satAdd 0xFFFF f.clampLo 1 }
  else { f with width := (divNearest (4 * w.1) (5 * w.2)).toNat }

/-- V from the calibrated codes of the supply; without any the V of the previous line (R147). -/
def Fire.takeSupply (r : Profile) (codes : List Nat) (f : Fire) : Fire :=
  if codes = [] then f
  else
    let num := codes.foldl (· + ·) 0 * 18 * r.vhsScale
    let den := codes.length * 4095 * 10000
    { f with vNum := num, vDen := den, vhs10mV := min 0xFFFF (divNearest (100 * num) den).toNat }

/-! ## Strobes -/

/-- Steps of 1.25 ns from the latch's fall to the rise of strobe `k` (R143), on the FIRE grid: the next step (log entry 141). -/
def Profile.strobeStep (r : Profile) (k : Nat) : Nat := nsSteps (k * r.stbMax)

/-- When strobe `k` of the line rises (R143). -/
def Committed.rise (r : Profile) (c : Committed) (k : Nat) : Time48 := c.tFire + BitVec.ofNat 48 (r.strobeStep k)

/-- A span of fabric time, its start and its length in steps, holds at `now`. -/
def spanHolds (now : Time48) (x : Time48 × Nat) : Bool := since now x.1 < x.2

/-- The strobe spans of the line: strobe `k` is active for the line's width from its rise (R143). -/
def Committed.spans (r : Profile) (c : Committed) : List (Time48 × Nat) :=
  if c.fired then (List.range r.strobes).map fun k => (c.rise r k, c.width) else []

/-- Strobe `k` of the line is active (R143). -/
def Committed.strobeActive (r : Profile) (c : Committed) (k : Nat) (now : Time48) : Bool :=
  c.fired && k < r.strobes && spanHolds now (c.rise r k, c.width)

/-- The latch is high: from t_f − LAT_W to t_f (R143). -/
def Committed.latchHigh (r : Profile) (c : Committed) (now : Time48) : Bool :=
  spanHolds now (c.tFire - BitVec.ofNat 48 (nsSteps r.latW), nsSteps r.latW)

/-- The strobe spans of the port: those of its line and of the latest test pulse. -/
def Port.spans (r : Profile) (q : Port) : List (Time48 × Nat) :=
  ((q.fire.committed.map (Committed.spans r)).getD []) ++ ((q.test.pulse.map fun t => [(t.rise, t.width)]).getD [])

/-! ## The sense converter (R147, R170) -/

/-- Start of a conversion window of 12.5 ns. -/
def windowStart (x : SenseSample) : Time48 := x.stop - 10

/-- The window overlaps a span. -/
def windowOverlaps (x : SenseSample) (e : Time48 × Nat) : Bool :=
  decide (0 < (x.stop - e.1).toInt ∧ (windowStart x - e.1).toInt < e.2)

/-- The window lies wholly inside a span. -/
def windowInside (e : Time48 × Nat) (x : SenseSample) : Bool :=
  decide (0 ≤ (windowStart x - e.1).toInt ∧ (x.stop - e.1).toInt ≤ e.2)

/-- The window ends in the 10 µs before an instant, and overlaps no span (R147). -/
def windowCounts (instant : Time48) (spans : List (Time48 × Nat)) (x : SenseSample) : Bool :=
  decide (0 ≤ (instant - x.stop).toInt ∧ (instant - x.stop).toInt ≤ 8000) && spans.all fun e => !windowOverlaps x e

namespace State

/-- The calibrated code of a port's sense converter (R308). -/
def senseCode (p : Fin 4) (raw : BitVec 12) (s : State) : Nat := s.cal.sense[p.val].code 4095 raw.toNat

/-- The port's firing state once the supply before an instant is known: V of R147, and the latest sample's code. -/
def senseSupply (p : Fin 4) (instant : Time48) (samples : List SenseSample) (f : Fire) (s : State) : Fire :=
  let spans := (s.port p).spans (s.prof p)
  let g := f.takeSupply (s.prof p) ((samples.filter (windowCounts instant spans)).map fun x => s.senseCode p x.code)
  match samples.getLast? with
  | some x => { g with vhsCode := s.senseCode p x.code }
  | none => g

end State

/-- Strobes of a line that have risen by `now` (R143). -/
def Committed.issued (r : Profile) (now : Time48) (c : Committed) : Nat :=
  if c.fired then min r.strobes (5 * since now c.tFire / (4 * max 1 r.stbMax) + 1) else 0

/-- The last strobe of the line has ended (R144). -/
def Committed.over (r : Profile) (now : Time48) (c : Committed) : Bool :=
  c.fired && 4 * (r.strobes - 1) * r.stbMax + 5 * c.width ≤ 5 * since now c.tFire

/-- First column group that strobe `k` serves (R144). -/
def Profile.strobeGroup (r : Profile) (k : Nat) : Nat := ceilDiv (k * r.columnGroups) r.strobes

/-- Drops of an assembled line in strobes `k` to `n` − 1 (R178). -/
def Profile.dropsOf (r : Profile) (k n : Nat) (a : AsmLine) : Nat :=
  (a.codes.filter fun x => let g := x.1 % r.npr / 64; decide (r.strobeGroup k ≤ g ∧ g < r.strobeGroup n)).length

/-- Records that a line made complete are not, where the line has not fired after all. -/
def Chan.unsettle (r : Profile) (lines : Nat) (fired : Int) (ch : Chan) : Chan :=
  { ch with owed := ch.owed.map fun o =>
      if o.print && o.ended && o.status = 0 && !o.withdrew && !o.printed r lines fired then { o with complete := false } else o }

/-- The strobes of the committed line that have not risen are not issued (R151, R160): the line is incomplete and its first unfired
group is kept. -/
def Port.cutLine (r : Profile) (c : Committed) (k : Nat) (q : Port) : Port :=
  { q with pdp := { q.pdp with fired := (c.line : Int) - 1
                               done := q.pdp.done && q.pdp.lastLine r != some c.line }
           fire := { q.fire with committed := none }
           seam := { q.seam with res := c.line, grp := max c.fromGroup (if k = 0 then 0 else r.strobeGroup k) } }

namespace State

/-- Apply a function to the channel that feeds a port. -/
def onFeeder (p : Fin 4) (f : Chan → Chan) (s : State) : State :=
  match (s.port p).pdp.channel.bind (fin? 64) with
  | some c => s.onChan c f
  | none => s

/-- The drops of the line's strobes below `n` are counted, those of a dry run apart (R178). -/
def countStrobes (p : Fin 4) (n : Nat) (s : State) : State :=
  let q := s.port p
  match q.fire.committed with
  | some c =>
    if c.counted < n then
      let drops := ((q.pdp.asm.find? fun a => a.line = c.line).map fun a => (s.prof p).dropsOf c.counted n a).getD 0
      let s1 := s.onPort p fun k => { k with fire := { k.fire with committed := some { c with counted := n } } }
      if q.arm.dryrun then s1 else s1.countDrops p drops
    else s
  | none => s

/-- The drops of every strobe that has risen are counted. -/
def countIssued (p : Fin 4) (s : State) : State :=
  s.countStrobes p (((s.port p).fire.committed.map fun c => c.issued (s.prof p) s.times.fab).getD 0)

/-- No strobe that has not risen is issued any more (R151, R160, R317). -/
def stopStrobes (p : Fin 4) (s : State) : State :=
  let r := s.prof p
  let q := s.port p
  match q.fire.committed with
  | some c =>
    let k := c.issued r s.times.fab
    if k < r.strobes then (s.onPort p (Port.cutLine r c k)).onFeeder p (Chan.unsettle r q.sos.lines ((c.line : Int) - 1)) else s
  | none => s

/-! ## Temperature levels -/

/-- A head shutdown of an armed port: firing stops at the next column-group boundary, in scan mode at the next line of the sweep that
is a multiple of 64 (R160, R162). -/
def shutSeam (p : Fin 4) (s : State) : State :=
  let q := s.port p
  let r := s.prof p
  if r.scan then
    let n := q.nextLine
    let i := ceilDiv (n % q.sos.lines) 64 * 64
    let stop : Int := if q.sos.between || q.sos.held = [] || q.sos.lines = 0 then q.pdp.f
      else if q.sos.lines ≤ i then sweepEnd q.sos.lines n else ((n / q.sos.lines * q.sos.lines + i : Nat) : Int) - 1
    s.seamCause p .shut stop
  else
    let s1 := s.stopStrobes p
    let q1 := s1.port p
    let cut := q.fire.committed.isSome && q1.fire.committed.isNone
    let s2 := s1.seamCause p .shut q1.pdp.fired
    if cut then s2.onPort p fun k => { k with seam := { k.seam with res := q1.seam.res, grp := q1.seam.grp } } else s2

/-- The head enters its shutdown level (R152, R171). -/
def enterShut (p : Fin 4) (s : State) : State :=
  let s1 := (s.onPort p fun q => { q with temp := { q.temp with shut := true, throt := true } }).raise .data 0x33 4 p.val
  if (s.port p).arm.armed then s1.shutSeam p else s1

/-- The shutdown and throttle levels end together (R152). -/
def leaveShut (p : Fin 4) (s : State) : State :=
  (s.onPort p fun q =>
    { q with temp := { q.temp with shut := false, throt := false, byInvalid := false, validMs := 0 }
             seam := q.seam.mark .shut false }).pollSeam p

/-- A valid temperature meets the levels of R152. -/
def tempLevels (p : Fin 4) (s : State) : State :=
  let r := s.prof p
  let h := (s.port p).temp
  let t := h.t
  let cool := decide (t < 16 * ((r.tThrot : Int) - r.tHyst))
  let set (f : Temp → Temp) (x : State) := x.onPort p fun q => { q with temp := f q.temp }
  let s1 := if !h.warn && decide (16 * (r.tWarn : Int) ≤ t) then (set (fun k => { k with warn := true }) s).raise .data 0x31 4 p.val
    else if h.warn && decide (t < 16 * ((r.tWarn : Int) - r.tHyst)) then set (fun k => { k with warn := false }) s else s
  let s2 := if !h.throt && decide (16 * (r.tThrot : Int) ≤ t) then (set (fun k => { k with throt := true }) s1).raise .data 0x32 4 p.val
    else s1
  if h.shut then
    let n := if cool then h.validMs + 1 else 0
    let s3 := set (fun k => { k with validMs := n }) s2
    if cool && (!h.byInvalid || 100 ≤ n) then s3.leaveShut p else s3
  else if 16 * (r.tShut : Int) ≤ t then s2.enterShut p
  else if h.throt && cool then set (fun k => { k with throt := false }) s2
  else s2

/-- An invalid temperature: the head counts as at its shutdown level (R171). -/
def tempInvalid (p : Fin 4) (s : State) : State :=
  let s1 := s.onPort p fun q => { q with temp := { q.temp with byInvalid := true, validMs := 0 } }
  if (s.port p).temp.shut then s1 else s1.enterShut p

/-! ## Health test -/

/-- The health map copy in force, as the test reads it (R141, R247). -/
def readMap (p : Fin 4) (s : State) : ReadResult :=
  let r := s.prof p
  s.mem.read 0 (r.region + 0x800 * (s.port p).pdp.mapset.toNat) (ceilDiv r.nozzles 8)

/-- The bit a test leaves for a nozzle (R141). -/
def testBit (t : HTest) (old : List Byte) (n : Nat) : Bool :=
  let was := (old.getD (n / 8) 0).getLsbD (n % 8)
  if t.first ≤ n && n < t.first + t.count then (t.merge && was) || t.missing.contains n else was

/-- The end of a test (R141): the copy not in force is written, and 0x35 raised where it differs from the copy in force. -/
def endTest (p : Fin 4) (s : State) : State :=
  let r := s.prof p
  let q := s.port p
  let map := s.readMap p
  let old := map.bytes
  let new : List Byte := (List.range old.length).map fun b =>
    BitVec.ofNat 8 ((List.range 8).foldl (fun x k => x + if testBit q.test old (8 * b + k) then 2 ^ k else 0) 0)
  let s1 := (s.noteRead 0 map false).onMem fun m =>
    m.writeBytes 0 (r.region + 0x800 * (!q.pdp.mapset).toNat) new
  let s2 := s1.onPort p fun k =>
    { k with test := { k.test with busy := false, done := true, missingReg := k.test.missing.length } }
  s2.raiseIf (new != old) .data 0x35 4 p.val

/-- The greyscale byte of a tested nozzle's row, which a 2-bit port reads (R130, R138). -/
def testByte (p : Fin 4) (n : Nat) (s : State) : Option (Nat × ReadResult) :=
  let r := s.prof p
  if r.bits = 1 then none else let a := r.region + 0x1000 + n / r.npr; some (a, s.mem.read 0 a 1)

/-- The code a tested nozzle is sent (R138). -/
def testCode (p : Fin 4) (n : Nat) (s : State) : Nat :=
  let r := s.prof p
  if r.bits = 1 then 1 else s.mem.headCode r (n / r.npr) 3

/-- The strobe that serves a nozzle (R144). -/
def strobeOf (r : Profile) (n : Nat) : Nat := n % r.npr / 64 * r.strobes / max 1 r.columnGroups

/-- The port's firing state in a test cycle with a fire instant: the cycle counts as a line commit, which LAT_W + 20 ns before the
instant samples the supply (R114, R147, R149); TEST_PCT scales a continuity pulse (R139). -/
def testFire (p : Fin 4) (fireAt : Time48) (samples : List SenseSample) (s : State) : Fire :=
  let r := s.prof p
  let q := s.port p
  (s.senseSupply p (fireAt - BitVec.ofNat 48 (nsSteps (r.latW + 20))) samples q.fire.takeEnergy).computeWidth r q.temp.t
    (if q.test.op = 1 then r.testPct else 100)

/-- The pulse of a test cycle: a line in which only the nozzle carries its code, fired on its strobe (R138). -/
def testPulse (p : Fin 4) (fireAt : Time48) (samples : List SenseSample) (s : State) : TestPulse :=
  let r := s.prof p
  let q := s.port p
  let n := q.test.first + q.test.visited
  let k := strobeOf r n
  { nozzle := n, strobe := k, rise := fireAt + BitVec.ofNat 48 (r.strobeStep k), width := (s.testFire p fireAt samples).width
    lanes := (List.range r.lanes).map (r.laneBits q.pdp.order q.pdp.grey [(n, s.testCode p n)]) }

/-- Sum and number of the codes converted wholly inside a span (R139, R170). -/
def senseOver (p : Fin 4) (samples : List SenseSample) (e : Time48 × Nat) (s : State) : Nat × Nat :=
  let l := samples.filter (windowInside e)
  (l.foldl (fun n x => n + s.senseCode p x.code) 0, l.length)

/-- The droop lies within its limits: the mean over an equal window that ends 1 µs before the pulse less the mean over the pulse, compared
unrounded (R139, log entry 141); none while a window lacks its samples. -/
def continuityHealthy (p : Fin 4) (x : TestPulse) (samples : List SenseSample) (s : State) : Option Bool :=
  let t := (s.port p).test
  let on := s.senseOver p samples (x.rise, x.width)
  let base := s.senseOver p samples (x.rise - BitVec.ofNat 48 (800 + x.width), x.width)
  let d : Int := (base.1 * on.2 : Nat) - (on.1 * base.2 : Nat)
  let n := base.2 * on.2
  if n = 0 then none else some (decide ((t.ctMin * n : Nat) ≤ d ∧ d ≤ (t.ctMax * n : Nat)))

/-- An edge of the drop-detect sprig fell from DELAY to DELAY + WIN after the nozzle's fire instant (R140), its strobe's rise (log entry
141); none before the window has passed. -/
def dropHealthy (p : Fin 4) (x : TestPulse) (s : State) : Option Bool :=
  let t := (s.port p).test
  if (s.times.fab - x.rise).toInt < (80 * (t.delay + t.win) : Nat) then none
  else some (t.edges.any fun e => let d := since e x.rise; decide (80 * t.delay ≤ d ∧ d ≤ 80 * (t.delay + t.win)))

/-- The judgement of a test cycle; none while the pulse, or what it is judged by, is not over. -/
def testHealthy (p : Fin 4) (x : TestPulse) (samples : List SenseSample) (s : State) : Option Bool :=
  if (s.times.fab - x.rise).toInt < x.width then none
  else if (s.port p).test.op = 1 then s.continuityHealthy p x samples else s.dropHealthy p x

/-- The cycle's fire instant follows the one before by 1 / RATE, to a step (R138). -/
def testOnTime (t : HTest) (fireAt : Time48) : Bool :=
  t.lastAt.all fun u => let d := since fireAt u * t.rate; decide (800000000 < d + t.rate ∧ d < 800000000 + t.rate)

/-- One cycle of a health test (R138 to R141): its pulse is judged, and its drop counted where it ejects one (R178). In the safe state no
strobe is active (R317). OP, MERGE, the range and the thresholds act as they stand in the cycle, and at the end (DESIGN CHOICE, log entry
141). -/
def testCycle (p : Fin 4) (fireAt : Time48) (x : TestPulse) (healthy : Bool) (samples : List SenseSample) (s : State) : State :=
  let t := (s.port p).test
  let fire := s.testFire p fireAt samples
  let s1 := s.onPort p fun q =>
    { q with fire := fire
             test := { q.test with visited := t.visited + 1, missing := if healthy then t.missing else t.missing ++ [x.nozzle]
                                   edges := [], lastAt := some fireAt, pulse := if s.flt.safe then none else some x } }
  let s2 := match s.testByte p x.nozzle with
    | some b => s1.noteRead 0 b.2 false
    | none => s1
  let s3 := if t.op = 2 && s.testCode p x.nozzle != 0 && !s.flt.safe then s2.countDrops p 1 else s2
  if t.visited + 1 = t.count then s3.endTest p else s3

/-- The conditions of R138; another OP names no test. DESIGN CHOICE: GO during a test is refused too (log entry 141). -/
def testAllowed (p : Fin 4) (s : State) : Bool :=
  let q := s.port p
  let r := s.prof p
  let t := q.test
  (s.profile p).isSome && !t.busy && !q.arm.armed && q.head.accepted && q.pdp.pend.isNone && !q.pdp.hmbusy && 1 ≤ t.count &&
    t.first + t.count ≤ r.nozzles && t.rate ≤ r.fireMax &&
    (t.op = 1 || (t.op = 2 && (s.sprigBound 10 p.val).isSome && (t.delay + t.win) * t.rate < 10000000))

end State

/-! ## Balls -/

/-- The levels a head port drives (R165, R168); none where the driver is off. -/
structure HeadBalls where
  laneP : List (Option Bool)
  laneN : List (Option Bool)
  clockP : Option Bool
  clockN : Option Bool
  latch : Bool
  strobes : List Bool
  deriving DecidableEq, Repr

/-- The reset state of the balls (R355): the drivers of lanes and clock off, latch and strobes low. -/
def HeadBalls.reset : HeadBalls :=
  { laneP := List.replicate 8 none, laneN := List.replicate 8 none, clockP := none, clockN := none, latch := false
    strobes := List.replicate 4 false }

/-- Steps of a bit period (R167): 1/(2f) with LVDS lanes, 1/f with CMOS lanes. -/
def Profile.bitSteps (r : Profile) : Nat := (if r.cmos then 4 else 2) * (r.clk % 16 + 1)

/-- The port clock `t` steps into a shift (R167): LVDS edges at the bit centres, the first rising; CMOS rising edges at the centres, falling
ones between the bits; low outside the shift. -/
def Profile.clockLevel (r : Profile) (t : Nat) : Bool :=
  let b := r.bitSteps
  if r.shiftLen * b ≤ t then false
  else if r.cmos then b ≤ 2 * (t % b) else (2 * t + b) / (2 * b) % 2 = 1

/-- A lane `t` steps into a shift: the bit of its period; low outside the shift (DESIGN CHOICE, log entry 142). -/
def Profile.laneLevel (r : Profile) (bits : List Bool) (t : Nat) : Bool := bits.getD (t / r.bitSteps) false

namespace State

/-- The line the port shifts: the committed one that has not fired, else the next. -/
def shiftedLine (p : Fin 4) (s : State) : Option AsmLine :=
  let q := s.port p
  let n := match q.fire.committed with
    | some c => if c.fired then q.nextLine else c.line
    | none => q.nextLine
  if q.arm.armed then q.pdp.asm.find? fun a => a.line = n else none

/-- The balls of a head port (R143, R165, R167): in their reset state without a profile, on a variant that lacks the port, and outside L0 and
L1 (R355); lanes from LANES and strobes from STROBES on low; latch and strobes inactive in the safe state and after a watchdog cut. -/
def headBalls (p : Fin 4) (s : State) : HeadBalls :=
  if s.hasPort p && (s.profile p).isSome && s.clocked then
    let r := s.prof p
    let q := s.port p
    let now := s.times.fab
    let t := since now q.fire.shiftAt
    let lane (k : Nat) : Bool := k < r.lanes && (match s.shiftedLine p with
      | some a => r.laneLevel (a.lanes.getD k []) t
      | none => false)
    let clock := (s.shiftedLine p).isSome && r.clockLevel t
    let held := s.flt.safe || q.fire.cut != 0
    let strobe (k : Nat) : Bool := !held && (
      (!q.arm.dryrun && q.fire.committed.any fun c => c.strobeActive r k now) ||
        q.test.pulse.any fun x => x.strobe = k && spanHolds now (x.rise, x.width))
    let other (b : Bool) : Option Bool := some (!r.cmos && !b)
    { laneP := (List.range 8).map fun k => some (lane k)
      laneN := (List.range 8).map fun k => other (lane k)
      clockP := some clock, clockN := other clock
      latch := !held && q.fire.committed.any fun c => c.latchHigh r now
      strobes := (List.range 4).map strobe }
  else HeadBalls.reset

end State

end Sys2Proof.Machine
end

