-- ==== Sys2Proof/Machine/FixedPoint.lean ====
section
/-!
DEFINITION. The arithmetic of the loop cores (R195, R196) and the sine table (R201). A value with 16 fractional bits is marked so.
-/

namespace Sys2Proof.Machine

/-- mul(a, b) of R195. -/
def mulQ (a b : Int) : Int := divNearest (a * b) (2 ^ 30)

/-- shift(x, n) of R195. -/
def shiftQ (x n : Int) : Int := if 0 ≤ n then x * 2 ^ n.toNat else divNearest x (2 ^ (-n).toNat)

/-- sat32(x) of R195. -/
def sat32 (x : Int) : Int := clampInt (-2147483648) 2147483647 x

/-- A 48-bit sum (R195). -/
def sat48 (x : Int) : Int := clampInt (-(2 ^ 47 : Nat)) (2 ^ 47 - 1 : Nat) x

/-- The scaling of R196 for a value with 16 fractional bits, before sat32. -/
def scaled16 (shift : Nat) (x16 : Int) : Int := shiftQ x16 (30 - 16 - (shift : Int))

/-! ## Sine (R201) -/

/-- One and π/2 with 60 fractional bits. -/
def oneQ60 : Int := 1152921504606846976
def halfPiQ60 : Int := 1811004864519280711

/-- The alternating series from term `n` on, `o` = 1 for the sine and 0 for the cosine. -/
def trigSeries (x2 : Int) (o : Nat) : (terms n : Nat) → Int
  | 0, _ => oneQ60
  | k + 1, n => oneQ60 - x2 * trigSeries x2 o k (n + 1) / oneQ60 / ((2 * n + o - 1) * (2 * n + o) : Nat)

/-- sin of `r`/2^30 of a quarter turn, in Q1.30. -/
def quarterSine (r : Nat) : Int :=
  let x := r * halfPiQ60 / 1073741824
  divNearest (x * trigSeries (x * x / oneQ60) 1 12 1 / oneQ60) (2 ^ 30)

/-- cos of `r`/2^30 of a quarter turn, in Q1.30. -/
def quarterCosine (r : Nat) : Int :=
  let x := r * halfPiQ60 / 1073741824
  divNearest (trigSeries (x * x / oneQ60) 0 12 1) (2 ^ 30)

/-- The exact sine of an angle in 2^-32 turn, rounded to Q1.30. -/
def exactSine (t : BitVec 32) : Int :=
  let r := t.toNat % 2 ^ 30
  match t.toNat / 2 ^ 30 with
  | 0 => quarterSine r
  | 1 => quarterCosine r
  | 2 => -quarterSine r
  | _ => -quarterCosine r

/-- The internal tables, within ±2^-24 of the exact values (R201, log entry 6). -/
def tableSine (t : BitVec 32) : Int := exactSine t + clampInt (-64) 64 (Config.sineError t)
def tableCosine (t : BitVec 32) : Int := exactSine (t + 0x40000000) + clampInt (-64) 64 (Config.cosineError t)

end Sys2Proof.Machine
end

