-- ==== Sys2Proof/Machine/Profiles.lean ====
section
/-!
DEFINITION. The motions of R214, planned in whole samples: each sample has a constant jerk, so the acceleration is linear between samples,
and a plan is the list of its values there. Accelerations are in 2^-32 counts/s², velocities in 2^-33/RATE counts/s and ways in
2^-32/(6·RATE²) counts, in which the sample law of R214 is exact. Among the plans of R214 the model takes the one built here (log entry 7).
-/

namespace Sys2Proof.Machine

/-! ## Searching -/

/-- The last of the integers from `lo`, where `p` holds, to below `hi`, where it does not. -/
def lastWhere (p : Int → Bool) : (fuel : Nat) → (lo hi : Int) → Int
  | 0, lo, _ => lo
  | k + 1, lo, hi =>
    let m := (lo + hi) / 2
    if hi - lo ≤ 1 then lo else if p m then lastWhere p k m hi else lastWhere p k lo m

/-- `n` doubled until `p` holds. -/
def doubled (p : Nat → Bool) : (fuel n : Nat) → Nat
  | 0, n => n
  | k + 1, n => if p n then n else doubled p k (2 * n)

/-- The least number from which on `p` holds. -/
def leastWhere (p : Nat → Bool) : Nat :=
  if p 0 then 0 else (lastWhere (fun n => !p n.toNat) 64 0 (doubled p 64 1 : Nat)).toNat + 1

/-! ## A change of velocity -/

/-- The highest and the lowest acceleration at sample `k` from which the limits let the leg end in time. An acceleration outside the limit at
the start returns to it at full jerk. -/
def Leg.upper (l : Leg) (k : Nat) : Int :=
  min (min (l.a0 + (k * l.q : Nat)) (max (l.top : Int) (l.a0 - (k * l.q : Nat)))) ((l.n - k) * l.q : Nat)

def Leg.lower (l : Leg) (k : Nat) : Int :=
  max (max (l.a0 - (k * l.q : Nat)) (min (-(l.top : Int)) (l.a0 + (k * l.q : Nat)))) (-(((l.n - k) * l.q : Nat) : Int))

/-- The acceleration at sample `k`. -/
def Leg.acc (l : Leg) (k : Nat) : Int := max (l.lower k) (min (l.upper k) l.h)

/-- Change of velocity over the leg (R214). -/
def Leg.gain (l : Leg) : Int := (List.range l.n).foldl (fun v k => v + l.acc k + l.acc (k + 1)) 0

/-- The leg of the fewest samples that changes the velocity by `dv`. -/
def Leg.shortest (a0 : Int) (q top : Nat) (dv : Int) : Leg :=
  let big := max top a0.natAbs
  let leg (h : Int) (n : Nat) : Leg := { a0, q, top, h, n }
  let n := leastWhere fun n => a0.natAbs ≤ n * q && decide ((leg (-(big : Int)) n).gain ≤ dv) && decide (dv ≤ (leg big n).gain)
  leg (lastWhere (fun h => decide ((leg h n).gain ≤ dv)) 128 (-(big : Int)) (big + 1)) n

/-! ## A way -/

def Track.len (t : Track) : Nat := t.rise.n + t.cruise + t.fall.n

/-- The acceleration at sample `k`; 0 once the track has ended. -/
def Track.acc (t : Track) (k : Nat) : Int :=
  if k ≤ t.rise.n then t.rise.acc k else if k ≤ t.rise.n + t.cruise then 0 else if k < t.len then t.fall.acc (k - t.rise.n - t.cruise) else 0

/-- Velocity and way after one sample from acceleration `a` to `b` (R214). -/
def advance (a b : Int) (x : Int × Int) : Int × Int := (x.1 + a + b, x.2 + 3 * x.1 + 2 * a + b)

/-- The way of a track entered at velocity `v`. -/
def Track.way (v : Int) (t : Track) : Int :=
  ((List.range t.len).foldl (fun x k => advance (t.acc k) (t.acc (k + 1)) x) (v, 0)).2

/-- To rest. -/
def Track.stop (a0 : Int) (q top : Nat) (v : Int) : Track := { rise := Leg.shortest a0 q top (-v) }

/-- To the speed `w`, and then to rest. -/
def Track.through (a0 : Int) (q top : Nat) (v w : Int) : Track :=
  let l := Leg.shortest a0 q top (w - v)
  { rise := l, fall := Leg.shortest 0 q top (-(v + l.gain)) }

/-- The speed reached when the acceleration has gone to 0 at full jerk. -/
def easedSpeed (a0 : Int) (q top : Nat) (v : Int) : Int :=
  v + Leg.gain { a0, q, top, h := 0, n := ceilDiv a0.natAbs q }

/-- A track at speeds up to `vmax` that covers `way` at least, through the lowest speed that does it without a stay at that speed, or with
a cruise at `vmax`. -/
def Track.covering (a0 : Int) (q top : Nat) (v vmax way : Int) : Track :=
  let track := Track.through a0 q top v
  let low := clampInt 0 vmax (easedSpeed a0 q top v)
  let full := track vmax
  if way ≤ (track low).way v then track low
  else if full.way v ≤ way then { full with cruise := ceilDiv (way - full.way v).toNat (3 * (v + full.rise.gain)).toNat }
  else track (lastWhere (fun w => decide ((track w).way v ≤ way)) 160 low vmax + 1)

/-! ## Motions -/

/-- The acceleration of a motion at sample `k`. -/
def Motion.acc (m : Motion) (k : Nat) : Int :=
  m.sense * ((m.part * m.fast.acc k + (m.whole - m.part) * m.slow.acc k) / m.whole)

/-- The motion after its next sample; `u` is 2^-16 counts/s in the motion's velocities. At its last sample it has its end's velocity
exactly, and coasts on it. -/
def Motion.next (u : Nat) (m : Motion) : Motion :=
  if m.n ≤ m.k then { m with k := m.k + 1, way := m.way + 3 * m.vel }
  else
    let x := advance (m.acc m.k) (m.acc (m.k + 1)) (m.vel, m.way)
    { m with k := m.k + 1, vel := if m.n ≤ m.k + 1 then m.vEnd * u else x.1, way := x.2 }

/-- The motion to a velocity, 16 fractional bits. -/
def Motion.toSpeed (a0 : Int) (q top u : Nat) (v0 start vEnd : Int) : Motion :=
  let t : Track := { rise := Leg.shortest a0 q top (vEnd * u - v0) }
  { fast := t, slow := t, n := t.len, vel := v0, start, vEnd }

/-- The motion to rest at `goal`, `way` from its start, at speeds up to `vmax`: the mean of a stop and of a track that goes as far or
farther. Where the way lies behind the point at which a stop ends, or there is no speed to cover it at, the motion is a stop, and the
approach is planned when it is over. -/
def Motion.toGoal (a0 : Int) (q top : Nat) (v0 vmax start goal way : Int) : Motion :=
  let halt := Track.stop a0 q top v0
  let beyond := way - halt.way v0
  let stop : Motion := { fast := halt, slow := halt, n := halt.len, vel := v0, start }
  let sense : Int := if 0 ≤ beyond then 1 else -1
  let slow := Track.stop (sense * a0) q top (sense * v0)
  let fast := Track.covering (sense * a0) q top (sense * v0) vmax (sense * way)
  let part := sense * way - slow.way (sense * v0)
  let whole := fast.way (sense * v0) - slow.way (sense * v0)
  if beyond = 0 then { stop with goal := some goal }
  else if sense * v0 < 0 || whole < part then { stop with more := true }
  else { sense, fast, slow, part, whole, n := max fast.len slow.len, vel := v0, start, goal := some goal }

end Sys2Proof.Machine
end

