-- ==== Sys2Proof/Machine/Generator.lean ====
section
/-!
DEFINITION. Profile generators (R210 to R215) and test signals (R216 to R218). Position is in 1/64 count, velocity in counts/s,
acceleration in counts/s², each with 16 fractional bits.
-/

namespace Sys2Proof.Machine

/-! ## Limits -/

/-- A limit of a command: 0 means the slot's, and above it the slot's is used (R212, R213). -/
def limitOf (written limit : Nat) : Nat := if written = 0 then limit else min written limit

/-- A written limit is clipped (R213). -/
def clips (written limit : Nat) : Bool := limit < written

/-- GVEL, GACC or GJERK of a command exceeds its limit. -/
def GenCmd.clipped (c : GenCmd) (r : SlotRec) : Bool := clips c.vel.natAbs r.vmax || clips c.acc r.amax || clips c.jerk r.jmax

/-- Speed limit of a MOVE, counts/s. -/
def GenCmd.moveSpeed (c : GenCmd) (r : SlotRec) : Nat := limitOf c.vel.natAbs r.vmax

/-- Velocity of a JOG, counts/s. -/
def GenCmd.jogVel (c : GenCmd) (r : SlotRec) : Int := clampInt (-(r.vmax : Int)) r.vmax c.vel

/-! ## Goals -/

/-- What the generator moves toward: a position at rest, or a velocity. -/
inductive Goal where
  | position (p : Int)
  | velocity (v : Int)
  deriving DecidableEq, Repr

/-- A forward velocity held to v_lim (R153). -/
def Gen.limited (g : Gen) (x : AxisView) (v : Int) : Int :=
  match g.vlim with
  | some l => if 0 ≤ v * x.forward then x.forward * min (v * x.forward) l else v
  | none => v

/-- The command last given to the slot, a stored one included. -/
def Gen.lastCmd (g : Gen) : GenCmd := g.held.getD g.cmd

/-- The forward speed v_cmd of R215, 16 fractional bits. -/
def Gen.vcmd (g : Gen) (r : SlotRec) (x : AxisView) : Int :=
  let c := g.lastCmd
  if c.op = 2 then (if 0 < c.jogVel r * x.forward then (c.jogVel r).natAbs * 65536 else 0)
  else if c.op = 1 then (if 0 < (c.target * 65536 - g.p) * x.forward then c.moveSpeed r * 65536 else 0)
  else 0

/-- The print speed v_p of R153, 16 fractional bits. -/
def Gen.printSpeed (g : Gen) (r : SlotRec) (x : AxisView) : Int :=
  match g.vlim with
  | some l => min (g.vcmd r x) l
  | none => g.vcmd r x

/-- The goal of the generator's present motion (R157, R160, R212). -/
def Gen.goal (g : Gen) (r : SlotRec) (x : AxisView) : Goal :=
  match (if x.scan then SeamPhase.none else g.seam) with
  | .creep => .velocity (if g.v.natAbs < x.creep.natAbs then g.v else x.forward * x.creep)
  | .stopping | .held => .velocity 0
  | .backing => .position (g.xb * 64 * 65536)
  | .running => .velocity (x.forward * g.printSpeed r x)
  | .none =>
    if g.cmd.op = 1 then .position (g.cmd.target * 65536)
    else if g.cmd.op = 2 then .velocity (g.limited x (g.cmd.jogVel r * 65536))
    else .velocity 0

/-- Limits of a motion: its speed with 16 fractional bits, the acceleration in counts/s² and the jerk in counts/s³. The seam uses the
slot's; a MOVE whose target lies forward keeps to v_lim (R153, R157, R213). -/
structure Limits where
  speed : Nat
  acc : Nat
  jerk : Nat

def Gen.limits (g : Gen) (r : SlotRec) (x : AxisView) : Limits :=
  if g.seam = .none || x.scan then
    let v := (if g.cmd.op = 1 then g.cmd.moveSpeed r else r.vmax) * 65536
    { speed := if 0 < (g.cmd.target * 65536 - g.p) * x.forward then min v (g.vlim.getD v) else v
      acc := limitOf g.cmd.acc r.amax, jerk := 256 * limitOf g.cmd.jerk r.jmax }
  else { speed := r.vmax * 65536, acc := r.amax, jerk := 256 * r.jmax }

/-! ## Samples -/

/-- A plan starts from the measured position and velocity, or the generator's own position where the input has none, and from the
generator's own acceleration (R211). -/
def Gen.plan (j : Job) (g : Gen) : Gen :=
  { g with p := j.measP.getD g.p, v := j.measV, busy := true, replan := false, motion := none }

/-- 2^-16 counts/s in the velocities of a motion. -/
def speedUnit (rate : Nat) : Nat := 131072 * max 1 rate

/-- 2^-16 of 1/64 count in the ways of a motion. -/
def wayUnit (rate : Nat) : Nat := 6144 * (max 1 rate * max 1 rate)

/-- The motion planned from the generator's present state to its goal (R214). -/
def Gen.shape (r : SlotRec) (x : AxisView) (g : Gen) : Motion :=
  let l := g.limits r x
  let q := l.jerk * 4294967296 / max 1 r.rate
  let top := l.acc * 4294967296
  let u := speedUnit r.rate
  match g.goal r x with
  | .velocity v => Motion.toSpeed (g.a * 65536) q top u (g.v * u) g.p v
  | .position p => Motion.toGoal (g.a * 65536) q top (g.v * u) (l.speed * u : Nat) g.p p ((p - g.p) * wayUnit r.rate)

/-- The generator after the next sample of a motion; the end of a MOVE sets ARRIVED. -/
def Gen.follow (rate : Nat) (m : Motion) (g : Gen) : Gen :=
  let m1 := m.next (speedUnit rate)
  let done := decide (m1.n ≤ m1.k)
  { g with motion := some m1
           a := if done then 0 else divNearest (m1.acc m1.k) 65536
           v := divNearest m1.vel (speedUnit rate)
           p := match (if done then m1.goal else none) with
             | some p => p
             | none => m1.start + divNearest m1.way (wayUnit rate)
           busy := !done || m1.vel != 0 || m1.more
           arrived := g.arrived || (m1.goal.isSome && m1.k = max 1 m1.n && g.seam != .backing) }

/-- The velocity goal is reached: the generator coasts on it. -/
def Gen.steady (g : Gen) : Goal → Bool
  | .velocity v => g.v = v && g.a = 0
  | .position _ => !g.busy

/-- The motion the generator follows, where no approach or new plan is due. -/
def Gen.underWay (g : Gen) : Option Motion := g.motion.filter fun m => !(m.more && m.n ≤ m.k)

/-- One sample of the generator. -/
def Gen.sample (r : SlotRec) (x : AxisView) (g : Gen) : Gen :=
  let m := g.underWay.getD (g.shape r x)
  g.follow r.rate m

/-- The generator's part of a sample: a release, a command or a change of phase or cap plans anew, the creep phase ends one count past
the stop line (R157, R211). -/
def Gen.run (r : SlotRec) (j : Job) (g : Gen) : Gen :=
  let g1 := if j.first then { g.plan j with a := 0 } else g
  let g2 := match j.cmd with
    | some c => { g1.plan j with cmd := c }
    | none => g1
  let g3 := if g2.replan then g2.plan j else g2
  let g4 := if g3.seam = .creep && (j.view.passed || g3.noCreep) then { g3.plan j with seam := .stopping } else g3
  g4.sample r j.view

/-! ## Test signals -/

/-- Feedback taps of R217, as exponents. -/
def prbsTaps : Nat → List Nat
  | 7 => [7, 6]
  | 8 => [8, 6, 5, 4]
  | 9 => [9, 5]
  | 10 => [10, 7]
  | 11 => [11, 9]
  | 12 => [12, 11, 10, 4]
  | 13 => [13, 12, 11, 8]
  | 14 => [14, 13, 12, 2]
  | 15 => [15, 14]
  | _ => []

/-- One shift of the PRBS register. -/
def prbsStep (order : Nat) (r : BitVec 16) : BitVec 16 :=
  let b := (prbsTaps order).foldl (fun x e => x ^^ r.getLsbD (e - 1)) false
  BitVec.ofNat 16 ((2 * r.toNat + b.toNat) % 2 ^ order)

/-- The output bit: the register's last stage. -/
def TestSig.prbs (t : TestSig) : Bool :=
  if (prbsTaps t.order).isEmpty then Config.prbsBit t.order t.n else t.lfsr.getLsbD (t.order - 1)

/-- HOLDN of R216, 0 meaning 256. -/
def TestSig.hold (t : TestSig) : Nat := if t.holdn = 0 then 256 else t.holdn

/-- The signal has run its samples. -/
def TestSig.over (t : TestSig) : Bool := t.len != 0 && t.len ≤ t.n

/-- A phase step no greater than f_n/(16·RATE) turns, in 2^-32 turn, with f_n = F0·(F1/F0)^(n/TSLEN) (R218). -/
def underChirp (f0 f1 len rate n step : Nat) : Bool := (step * rate) ^ len * f0 ^ n ≤ (268435456 * f0) ^ len * f1 ^ n

/-- The phase step of a chirp, in 2^-32 turn: the law's, rounded down, with the error of the ratio computed at GO (log entry 6). -/
def chirpStep (f0 f1 len rate n : Nat) : Int :=
  let exact := lastWhere (fun x => underChirp f0 f1 len rate n x.toNat) 40 0 4294967296
  let most := 1 + exact / 65536
  exact + clampInt (-most) most (Config.chirpError f0 f1 len rate n)

/-- The signal's value at its present sample; KIND 0 names no signal. -/
def TestSig.value (t : TestSig) : Int :=
  match t.kind with
  | 1 => t.amp
  | 2 => if t.prbs then t.amp else -t.amp
  | 3 => mulQ t.amp (tableSine t.phase)
  | _ => 0

/-- The signal after its present sample. -/
def TestSig.next (rate : Nat) (t : TestSig) : TestSig :=
  { t with n := t.n + 1
           lfsr := if t.kind = 2 && (t.n + 1) % t.hold = 0 then prbsStep t.order t.lfsr else t.lfsr
           phase := if t.kind = 3 then t.phase + BitVec.ofInt 32 (chirpStep t.sweep.1 t.sweep.2.1 t.sweep.2.2 rate t.n) else t.phase }

/-- Value and next state at a sample whose tick found the signal active; it runs out after its samples. -/
def TestSig.sample (rate : Nat) (t : TestSig) : Int × TestSig := if t.over then (0, t) else (t.value, t.next rate)

/-- TSCTRL.GO with the conditions met (R217, R218). -/
def TestSig.start (t : TestSig) : TestSig :=
  { t with active := true, n := 0, lfsr := BitVec.ofNat 16 (2 ^ t.order - 1), phase := 0, fresh := true, sweep := (t.f0, t.f1, t.len) }

end Sys2Proof.Machine
end

