-- ==== Sys2Proof/Machine/LoopLaws.lean ====
section
/-!
DEFINITION. The laws (R198 to R207): what one sample of a slot computes from what its tick latched.
-/

namespace Sys2Proof.Machine

/-- Bits of SATFLAGS (R197). -/
def satErr : BitVec 7 := 1
def satInt : BitVec 7 := 2
def satSum : BitVec 7 := 4
def satOut : BitVec 7 := 8
def satSup : BitVec 7 := 16
def satDuty : BitVec 7 := 32
def satFf : BitVec 7 := 64

def when (b : Bool) (f : BitVec 7) : BitVec 7 := if b then f else 0

/-- sat32 with its flag. -/
def sat32With (f : BitVec 7) (x : Int) : Int × BitVec 7 := (sat32 x, when (sat32 x != x) f)

/-! ## The PI(D) recursion of R198 -/

structure PidOut where
  u : Int
  integ : Int
  sat : BitVec 7
  deriving DecidableEq, Repr

/-- R198 with the lower clamp `lo`, derivative gain `kd` and test signal `t`. -/
def pid (c : Coefs) (lo kd e ePrev phi t integ uPrev : Int) : PidOut :=
  let inc := mulQ c.ki e
  let stuck := decide ((uPrev = c.outMax ∧ inc > 0) ∨ (uPrev = lo ∧ inc < 0))
  let i := if stuck then integ else clampInt (-c.iLim) c.iLim (integ + inc)
  let s := mulQ c.kp e + i + mulQ kd (e - ePrev) + mulQ c.kf phi + t
  let u := clampInt lo c.outMax (sat48 s)
  { u, integ := i
    sat := when (!stuck && decide (i = c.iLim ∨ i = -c.iLim)) satInt ||| when (sat48 s != s) satSum ||| when (u != sat48 s) satOut }

/-! ## References -/

/-- An inner slot of a cascade has an outer one; it is marked in its record by the chain, and its job carries the set-point. -/
def Slot.reference16 (x : Slot) (inner : Bool) (j : Job) : Int :=
  if inner then (j.outer.getD j.input) * 65536
  else if x.cfg.hasGen then (if x.velmode then 16 * x.gen.v else x.gen.p)
  else j.par.setpoint * 65536

/-- The test signal at the set-point (R216), 16 fractional bits. -/
def Slot.testAtInput (x : Slot) (t : Int) : Int := if x.ts.point then 0 else shiftQ t ((x.eshift : Int) - 30) * 65536

/-- The test signal at the output. -/
def Slot.testAtOutput (x : Slot) (t : Int) : Int := if x.ts.point then t else 0

/-- φ of R198 by FFSEL, 16 fractional bits. -/
def Slot.phi16 (x : Slot) (j : Job) : Int :=
  let v := if x.cfg.hasGen then x.gen.v else j.genVel
  let a := if x.cfg.hasGen then x.gen.a else j.genAcc
  if x.ffsel = 1 then 16 * v else if x.ffsel = 2 then a else 0

/-- What a sample gives: the slot after it, its output value, u, the flags it sets. -/
structure SampleOut where
  slot : Slot
  value : SlotOut
  u : Int
  sat : BitVec 7
  /-- The off level of a sample whose sensor is not trusted, delivered as it is (R203). -/
  untrusted : Bool := false
  deriving DecidableEq, Repr

/-- One loop of R198 on an error and φ with 16 fractional bits. -/
def Slot.loop (x : Slot) (j : Job) (lo kd err16 phi16 t : Int) : SampleOut :=
  let e := sat32With satErr (scaled16 x.eshift err16)
  let phi := sat32With satFf (scaled16 x.fshift phi16)
  let o := pid j.coef lo kd e.1 (if j.first then e.1 else x.ePrev) phi.1 t x.integ x.uPrev
  { slot := { x with integ := o.integ, ePrev := e.1, uPrev := o.u, errLast := e.1 }
    value := .duty o.u, u := o.u, sat := o.sat ||| e.2 ||| phi.2 }

/-- PIDF and cascade slots (R198, R199). -/
def Slot.runPidf (x : Slot) (inner : Bool) (j : Job) (t : Int) : SampleOut :=
  let r := x.reference16 inner j + x.testAtInput t
  let o := x.loop j j.coef.outMin j.coef.kd (r - j.input * 65536) (x.phi16 j) (x.testAtOutput t)
  { o with slot := { o.slot with refLast := r / 65536 } }

/-- PI-current without DQ (R200) and pressure PI (R204), whose error has the other sign and whose output is not negative. -/
def Slot.runPi (x : Slot) (pressure : Bool) (j : Job) (t : Int) : SampleOut :=
  let r := j.par.setpoint * 65536 + x.testAtInput t
  let err := r - j.input * 65536
  let o := x.loop j (if pressure then max j.coef.outMin 0 else j.coef.outMin) 0 (if pressure then -err else err) r (x.testAtOutput t)
  { o with slot := { o.slot with refLast := r / 65536 } }

/-- Heater PI (R202). -/
def Slot.runHeater (x : Slot) (j : Job) (t : Int) : SampleOut :=
  let r := j.par.setpoint * 65536 + x.testAtInput t
  let o := x.loop j (max j.coef.outMin 0) 0 (r - j.input * 65536) (r - j.par.tamb * 65536) (x.testAtOutput t)
  { o with slot := { o.slot with refLast := r / 65536 } }

/-- The thermal model at a sample (R202). -/
def Slot.modelNext (x : Slot) (j : Job) : Int :=
  if j.first then j.input
  else x.model + mulQ j.par.malpha (j.par.tamb + mulQ j.par.mgain x.uPrev - x.model)

/-- The sensor is invalid at a sample (R203), with the model's value at it. -/
def Slot.sensorBad (x : Slot) (j : Job) (model : Int) : Bool :=
  let lim (n : Nat) : Int := if x.cfg.inKind = 5 then signed 16 n else n
  match j.raw with
  | none => true
  | some v =>
    decide (v < lim x.cfg.inMin) || decide (lim x.cfg.inMax < v) ||
      (x.cfg.law = 4 && j.par.mdev != 0 && decide ((j.par.mdev : Int) < (j.input - model).natAbs))

/-- A sample whose sensor is not trusted: output 0, the integrator unchanged (R203). The sixteenth valid sample in a row clears SENSINV,
and the next one drives the output again. -/
def Slot.runInvalid (x : Slot) (j : Job) (bad : Bool) (model : Int) : SampleOut :=
  let n := if bad then 0 else x.validRun + 1
  let again := decide (16 ≤ n)
  { slot := { x with sensinv := !again, validRun := if again then 0 else n, model := if again then j.input else model, uPrev := 0 }
    value := .duty 0, u := 0, sat := 0, untrusted := true }

/-- Heater and pressure slots behind their sensor rule (R203). -/
def Slot.runSensed (x : Slot) (j : Job) (t : Int) : SampleOut :=
  let model := if x.cfg.law = 4 then x.modelNext j else x.model
  let bad := x.sensorBad j model
  if bad || x.sensinv then x.runInvalid j bad model
  else
    let y := { x with model := model }
    if x.cfg.law = 4 then y.runHeater j t else y.runPi true j t

/-- Peak-hold current (R205). -/
def Slot.runPeakHold (x : Slot) (j : Job) (t : Int) : SampleOut :=
  let r16 := j.par.setpoint * 65536 + x.testAtInput t
  let r := r16 / 65536
  let on := decide (0 < r)
  let e := sat32With satErr (scaled16 x.eshift (r16 - j.input * 65536))
  let runs := on && j.hold
  let i := if runs then clampInt (-j.coef.iLim) j.coef.iLim (x.integ + mulQ j.coef.ki e.1) else x.integ
  let hold := clampInt 0 65535 (r + shiftQ i ((x.eshift : Int) - 30))
  { slot := { x with integ := i, errLast := e.1, refLast := r }
    value := .onHold on hold.toNat, u := Config.peakHoldOutput hold
    sat := when runs e.2 ||| when (runs && decide (i = j.coef.iLim ∨ i = -j.coef.iLim)) satInt }
/-! ## DQ (R201) -/

def invSqrt3 : Int := 619925131
def halfSqrt3 : Int := 929887697

/-- The electrical angle of R201. -/
def Slot.angle (j : Job) (x : Int) : BitVec 32 :=
  let turns := if j.par.cpr = 0 then Config.angleWithoutCpr x
    else BitVec.ofNat 32 (twos 32 (j.par.poles * (x * 4294967296 / (64 * j.par.cpr : Nat))))
  turns + j.par.angofs

/-- The three duties of the inverse transform with mid-point modulation. -/
def phaseDuties (vd vq sin cos : Int) : List Int :=
  let va := mulQ cos vd - mulQ sin vq
  let vb := mulQ sin vd + mulQ cos vq
  let half := shiftQ (-va) (-1)
  let v := [va, half + mulQ halfSqrt3 vb, half - mulQ halfSqrt3 vb]
  let mid := shiftQ (v.foldl max va + v.foldl min va) (-1)
  v.map fun z => 536870912 + z - mid

/-- PI-current with DQ. OUTPUT shows vq, ERROR the q error (log entry 26). -/
def Slot.runDq (x : Slot) (j : Job) (t : Int) : SampleOut :=
  match j.angle with
  | none => { slot := x, value := .duties 536870912 536870912 536870912, u := 536870912, sat := satErr }
  | some pos =>
    let th := Slot.angle j pos
    let s := tableSine th
    let c := tableCosine th
    let scale (v : Int) := sat32With satErr (scaled16 x.eshift (v * 65536))
    let iu := scale j.input
    let iv := scale (j.aux.getD 0)
    let ib := mulQ invSqrt3 (iu.1 + 2 * iv.1)
    let id := mulQ iu.1 c + mulQ ib s
    let iq := mulQ ib c - mulQ iu.1 s
    let rd := scale j.par.idref
    let rq := sat32With satErr (scaled16 x.eshift (j.par.setpoint * 65536 + x.testAtInput t))
    let ed := sat32With satErr (rd.1 - id)
    let eq := sat32With satErr (rq.1 - iq)
    let od := pid j.coef j.coef.outMin 0 ed.1 ed.1 0 0 x.integD x.uPrevD
    let oq := pid j.coef j.coef.outMin 0 eq.1 eq.1 0 (x.testAtOutput t) x.integ x.uPrev
    let raw := phaseDuties od.u oq.u s c
    let d := raw.map (clampInt 0 1073741824)
    { slot := { x with integ := oq.integ, integD := od.integ, uPrev := oq.u, uPrevD := od.u, ePrev := eq.1, errLast := eq.1
                       refLast := j.par.setpoint }
      value := .duties (d.getD 0 0) (d.getD 1 0) (d.getD 2 0), u := oq.u
      sat := od.sat ||| oq.sat ||| iu.2 ||| iv.2 ||| rd.2 ||| rq.2 ||| ed.2 ||| eq.2 ||| when (d != raw) satDuty }

/-! ## A sample -/

/-- Supply feed-forward before delivery (R207); a DQ slot ignores it. -/
def Slot.feedForward (x : Slot) (j : Job) (u : Int) : Int × BitVec 7 :=
  match j.aux with
  | some v =>
    if x.supplyff && (x.cfg.auxKind = 3 || x.cfg.auxKind = 6) && !x.cfg.dq && j.par.vnom != 0 && decide (0 < v) then
      let q := divNearest (u * j.par.vnom) v.toNat
      let w := clampInt j.coef.outMin j.coef.outMax q
      (w, when (w != q) satSup)
    else (u, 0)
  | none => (u, 0)

/-- The law of a slot. -/
def Slot.law (x : Slot) (inner : Bool) (j : Job) (t : Int) : SampleOut :=
  match x.cfg.kind with
  | .pidf | .cascade | .unknown => x.runPidf inner j t
  | .piCurrent => x.runPi false j t
  | .piDq => x.runDq j t
  | .heater | .pressure => x.runSensed j t
  | .peakHold => x.runPeakHold j t

/-- One sample: generator, test signal, law, feed-forward; the flags are sticky. -/
def Slot.compute (x : Slot) (inner : Bool) (j : Job) : SampleOut :=
  let x1 := if x.cfg.hasGen then { x with gen := x.gen.run x.cfg j } else x
  let t := if j.testOn then x1.ts.sample x1.cfg.rate else (0, x1.ts)
  let o := { x1 with tLast := t.1, inLast := j.input }.law inner j t.1
  let f := match o.value with
    | .duty u => if o.untrusted then (u, 0) else x.feedForward j u
    | _ => (o.u, 0)
  { slot := { o.slot with ts := t.2, sat := x.sat ||| o.sat ||| f.2 }
    value := match o.value with
      | .duty _ => .duty f.1
      | w => w
    u := f.1, sat := o.sat ||| f.2 }

end Sys2Proof.Machine
end

