-- ==== Sys2Proof/Machine/LoopOps.lean ====
section
/-!
DEFINITION. Shared operations of loop slots: chains (R199), what a tick latches (R187), release (R186, R190), the core's choice of a
job (R193), delivery (R206), capture (R219).
-/

namespace Sys2Proof.Machine

namespace State

/-! ## Chains -/

/-- The slot of the core that names slot `i` as its NEXT: its outer slot. -/
def outerOf (c : Fin 4) (i : Fin 24) (s : State) : Option (Fin 24) :=
  (List.finRange 24).find? fun k => (s.slot c k).state != .free && (s.slot c k).cfg.law = 3 && (s.slot c k).cfg.next = i.val

/-- The head of a chain: the slot that no NEXT names. -/
def headOf (c : Fin 4) (s : State) : (fuel : Nat) → Fin 24 → Fin 24
  | 0, i => i
  | n + 1, i => match s.outerOf c i with
    | some k => s.headOf c n k
    | none => i

/-- A chain from its head. -/
def chainFrom (c : Fin 4) (s : State) : (fuel : Nat) → Fin 24 → List (Fin 24)
  | 0, i => [i]
  | n + 1, i =>
    let x := s.slot c i
    i :: (if x.cfg.law = 3 then (match fin? 24 x.cfg.next with
      | some k => s.chainFrom c n k
      | none => []) else [])

/-- Apply a function to a slot and the inner slots of its chain. -/
def onChain (c : Fin 4) (i : Fin 24) (f : Slot → Slot) (s : State) : State :=
  (s.chainFrom c 2 i).foldl (fun t k => t.onSlot c k f) s

/-! ## Inputs (R187) -/

/-- COUNT of a counting input. -/
def countInput (kind index : Nat) (s : State) : BitVec 32 :=
  if kind = 2 then ((fin? 96 index).map fun n => (s.sprig n).quad.count).getD 0
  else if kind = 4 then ((fin? 8 (index / 8)).bind fun a => (fin? 8 (index % 8)).map fun b => (s.tnode a b).enc).getD 0
  else ((fin? 8 index).map s.axisCount).getD 0

/-- A node index as a Tohevik node. -/
def nodeAt (index : Nat) (s : State) : Option TNode :=
  (fin? 8 (index / 8)).bind fun a => (fin? 8 (index % 8)).map fun b => s.tnode a b

/-- The value of a scalar input before its offset; a node reports its phase V current to AUX (R229). A channel reads 0 before the start-up
calibration is complete (R306). -/
def scalarInput (kind index : Nat) (aux : Bool) (s : State) : Int :=
  match kind with
  | 3 => if s.adcReady then (s.adcCode index : Nat) else 0
  | 5 => ((s.nodeAt index).map fun t => if aux then t.curB.toInt else t.curA.toInt).getD 0
  | 6 => ((s.nodeAt index).map fun t => t.vbridge.toInt).getD 0
  | 7 => ((fin? 96 index).map fun n => ((s.sprig n).tach.tfreq.toNat : Int)).getD 0
  | _ => 0

/-- The input is delivered: a node's only while the node is not lost, an ADC channel's once the ADC delivers (R203, R306). -/
def inputDelivered (kind index : Nat) (s : State) : Bool :=
  if kind = 4 || kind = 5 || kind = 6 then (s.nodeAt index).any fun t => t.delivered && !t.lost
  else if kind = 3 then s.adcReady else kind != 0

/-- Change of COUNT since the last sample, from its value there; 0 at the first one of a release. -/
def countStep (first : Bool) (prev : Int) (kind index : Nat) (s : State) : Int :=
  if first then 0 else signed 32 (twos 32 ((s.countInput kind index).toInt - prev))

/-- The native value of an input before its offset, by the slot's mode. -/
def nativeInput (x : Slot) (kind index : Nat) (prev : Int) (aux : Bool) (s : State) : Int :=
  if kind = 1 then ((fin? 8 index).map fun n => if x.velmode then (s.axis n).velocity else s.axisPos n).getD 0
  else if kind = 2 || kind = 4 then
    (if x.velmode then 16 * x.cfg.rate * s.countStep x.firstSample prev kind index else 64 * (s.countInput kind index).toInt)
  else s.scalarInput kind index aux

/-- INOFS and AUXOFS apply to converter codes and node values. -/
def hasOffset (kind : Nat) : Bool := kind = 3 || kind = 5 || kind = 6

/-- The native input value before INOFS. -/
def rawInput (x : Slot) (s : State) : Int := s.nativeInput x x.cfg.inKind x.cfg.inIndex x.countPrev false

/-- The native auxiliary input. -/
def auxInput (x : Slot) (s : State) : Option Int :=
  if x.cfg.auxKind = 0 then none
  else some (s.nativeInput x x.cfg.auxKind x.cfg.auxIndex x.auxPrev true - if hasOffset x.cfg.auxKind then x.par.auxofs else 0)

/-- Measured position and velocity of the slot's input for a plan (R211), with 16 fractional bits. A tach measures no position, and neither
does an input that is neither position nor velocity (log entry 7). -/
def measured (x : Slot) (s : State) : Option Int × Int :=
  match x.cfg.inKind with
  | 1 => ((fin? 8 x.cfg.inIndex).map fun n => (some (s.axisPos n * 65536), (s.axis n).velocity * 4096)).getD (none, 0)
  | 2 | 4 => (some (64 * (s.countInput x.cfg.inKind x.cfg.inIndex).toInt * 65536),
      x.cfg.rate * s.countStep x.firstSample x.countPrev x.cfg.inKind x.cfg.inIndex * 65536)
  | 7 => (none, s.scalarInput 7 x.cfg.inIndex false * 4096)
  | _ => (none, 0)

/-- What a SEAM slot's generator sees of its axis (R157, R162): the forward sense, v_c = max(2·VMIN, v_r/25) of the lowest rated speed,
and whether the axis has passed the stop line that lies least far forward. -/
def axisView (x : Slot) (s : State) : AxisView :=
  match (if x.cfg.seam then fin? 8 x.cfg.inIndex else none) with
  | none => {}
  | some n =>
    let fwd : Int := if (s.axis n).fwd = 2 then -1 else 1
    let ports := s.axisPorts n
    let rated := (ports.map fun p => (s.prof p).rated64).foldl min ((ports.map fun p => (s.prof p).rated64).headD 0)
    let creep := max (2 * (s.axis n).vmin * 65536) (rated * 1024 / 25)
    let stop := (ports.filter fun p => (s.port p).seam.axisHolds).map fun p => (s.port p).seam.axisFpos * fwd
    { forward := fwd, creep := (creep : Nat), scan := ports.any fun p => (s.prof p).scan
      passed := stop.any fun f => decide (f + 64 ≤ s.axisPos n * fwd) }

/-- Position of the axis that gives the electrical angle, where a quadrature sprig feeds it (R201). -/
def anglePosition (x : Slot) (s : State) : Option Int :=
  (fin? 8 x.par.encsel).bind fun n => if (s.axis n).sprig < 96 then some (s.axisPos n) else none

/-- The peak-hold output is in its hold phase; a node's counts as held while on (R205). -/
def holdPhase (x : Slot) (s : State) : Bool :=
  if x.cfg.outKind = 1 then (fin? 96 x.cfg.outIndex).any fun n => (s.sprig n).peak.phase = 2 else true

/-! ## Ticks -/

end State

/-- A loop time has come: times are 48 bits and wrap, so it lies in the half before the present one (R185). -/
def reached (t now : Time48) : Bool := !later t now

/-- tick(k) of R186. -/
def Slot.tickAt (x : Slot) (k : Nat) : Time48 := x.tau0 + BitVec.ofNat 48 ((k - x.k0) * 400000000 / max 1 x.cfg.rate)

/-- t_out(k) of R188. -/
def Slot.outAt (x : Slot) (k : Nat) : Time48 :=
  x.tickAt k + BitVec.ofNat 48 (if x.cfg.deadline = 0 then 400000000 / max 1 x.cfg.rate else x.cfg.deadline)

/-- The pending coefficient set applies (R208). -/
def Slot.takeCoefs (x : Slot) : Slot :=
  match x.coefPend with
  | some c => { x with coef := c, coefPend := none, set := !x.set }
  | none => x

namespace State

/-- The job of the next sample. -/
def latch (c : Fin 4) (i : Fin 24) (s : State) : Job :=
  let x := (s.slot c i).takeCoefs
  let raw := s.rawInput x
  let m := s.measured x
  let h := s.slot c (s.headOf c 2 i)
  { k := x.kNext, tOut := x.outAt x.kNext
    input := raw - if hasOffset x.cfg.inKind then x.par.inofs else 0
    raw := if s.inputDelivered x.cfg.inKind x.cfg.inIndex then some raw else none
    aux := s.auxInput x, angle := s.anglePosition x
    outer := (s.outerOf c i).bind fun k =>
      if (s.slot c k).delivered then some (shiftQ (s.slot c k).outLast ((x.eshift : Int) - 30)) else none
    measP := m.1, measV := m.2, genVel := if h.cfg.hasGen then h.gen.v else 0, genAcc := if h.cfg.hasGen then h.gen.a else 0
    hold := s.holdPhase x, first := x.firstSample, testOn := x.ts.active, testFirst := x.ts.active && x.ts.fresh, view := s.axisView x
    cmd := x.gen.next, par := x.par, coef := x.coef }

end State

/-- The slot after a tick has released a job; `count` and `aux` are the counts of its inputs there. -/
def Slot.ticked (x : Slot) (j : Job) (count aux : Int) : Slot :=
  let o : Out := { k := j.k, tOut := j.tOut, epoch := x.epoch, value := .park, u := 0, complete := false, testFirst := j.testFirst }
  { x.takeCoefs with kNext := x.kNext + 1, kLatest := x.kNext, firstSample := false, countPrev := count, auxPrev := aux
                     gen := { x.gen with next := none }, ts := { x.ts with fresh := false }, jobs := x.jobs ++ [j], outs := x.outs ++ [o] }

/-! ## The core's choice (R193) -/

/-- The slot's next job that its core may start: past the handover none, once the request has reached it (R221). -/
def Slot.startable (now : Time48) (x : Slot) : Option Job :=
  match x.jobs.find? fun j => !j.ran with
  | some j => if x.mig.pend && x.mig.toH ≤ j.k && reached x.mig.reach now then none else some j
  | none => none

/-- The released job with the earliest t_out; ties go to the lower slot. -/
def Core.choose (now : Time48) (k : Core) : Option Nat :=
  ((List.finRange 24).foldl (fun (best : Option (Time48 × Nat)) i =>
    match (k.slots[i.val]).startable now, best with
    | some j, none => some (j.tOut, i.val)
    | some j, some b => if later b.1 j.tOut then some (j.tOut, i.val) else best
    | none, _ => best) none).map (·.2)

/-- An idle core starts the job chosen. -/
def Core.start (now : Time48) (k : Core) : Core := if k.running.isNone then { k with running := k.choose now } else k

/-! ## Release (R186, R190) -/

/-- First multiple of 64 cycles at or after the release + 64. -/
def firstTick (now : Time48) : Time48 := BitVec.ofNat 48 ((now.toNat + 127) / 64 * 64)

/-- The slot released at a loop time; a release from holding keeps its state. -/
def Slot.released (now : Time48) (x : Slot) : Slot :=
  let y := if x.state = .holding then x
    else { x.parked with integ := if x.cfg.flags.testBit 1 then x.cfg.preload else 0, sensinv := false
                         gen := x.gen.cleared }
  { y with state := .running, k0 := x.kNext, tau0 := firstTick now, firstSample := true, delivered := false, ts := x.ts.stopped
           jobs := if x.state = .holding then x.jobs else [], outs := if x.state = .holding then x.outs else [] }

namespace State

def loopNow (s : State) : Time48 := s.times.loop

/-- A slot and the inner slots of its chain are released together. -/
def releaseSlot (c : Fin 4) (i : Fin 24) (s : State) : State := s.onChain c i (Slot.released s.loopNow)

/-- FAULT index of a slot (R311). -/
def slotIndex (c : Fin 4) (i : Fin 24) : Nat := 32 * c.val + i.val

/-- Every port that names the slot's axis is disarmed, for a SEAM slot (R191, R216). -/
def seamArmed (x : Slot) (s : State) : Bool :=
  x.cfg.seam && x.cfg.inKind = 1 && ((fin? 8 x.cfg.inIndex).map s.axisArmed).getD false

/-! ## Delivery (R206) -/

/-- A signed 16-bit duty of u. -/
def dutyWord (u : Int) : Nat := twos 16 (clampInt (-32767) 32767 (divNearest u 32768))

/-- A three-phase duty. -/
def phaseWord (d : Int) : Nat := (clampInt 0 65535 (divNearest (d * 65535) 1073741824)).toNat

/-- A solenoid's ON bit and level. -/
def solenoidLevel (v : SlotOut) : Bool × Nat :=
  match v with
  | .onHold on h => (on, h / 2)
  | .duty u => let l := (clampInt 0 32767 (divNearest (u * 32767) 1073741824)).toNat; (0 < l, l)
  | _ => (false, 0)

/-- The node command with an output delivered into it (R229). -/
def deliverCommand (r : SlotRec) (v : SlotOut) (cmd : BitVec 160) : BitVec 160 :=
  if r.outKind = 2 then
    match v with
    | .duty u => putField cmd 0 48 (dutyWord u)
    | .duties a b d => putField (putField (putField cmd 0 16 (phaseWord a)) 16 16 (phaseWord b)) 32 16 (phaseWord d)
    | _ => cmd
  else
    let o := r.outIndex % 4
    let l := solenoidLevel v
    putField (putField cmd (56 + o) 1 l.1.toNat) (64 + 16 * o) 16 l.2

/-- The value as the sprig's mode takes it: a step generator takes a rate. -/
def asSprigValue (mode : Nat) (v : SlotOut) : SlotOut :=
  match v with
  | .duty u => if mode = 4 then .rate u else .duty u
  | w => w

/-- An output goes to its sprig, which applies it at its next boundary and ignores it while its outputs are held (R66, R95), or to its node,
for the next cycle. -/
def deliver (r : SlotRec) (v : SlotOut) (s : State) : State :=
  match r.outKind with
  | 1 => match fin? 96 r.outIndex with
    | some n =>
      if s.outputsHeld then s
      else s.onSprig n fun g => { g with slotOut := some (asSprigValue g.mode v), slotCycle := s.times.fab }
    | none => s
  | _ => match nodeOfRec r with
    | some (a, b) => s.onTNode a b fun t => { t with command := deliverCommand r v t.command }
    | none => s

end State

/-! ## Capture (R219) -/

/-- N of R219. -/
def Core.capChannels (k : Core) : Nat :=
  if k.capEn.getLsbD 3 || k.capEn.getLsbD 2 then 4 else if k.capEn.getLsbD 1 then 2 else if k.capEn.getLsbD 0 then 1 else 4

/-- D of R219. -/
def Core.capDepth (k : Core) : Nat := 16384 / k.capChannels

def Core.capSlot (k : Core) (ch : Nat) : Nat := fld k.capSel (8 * ch) 5
def Core.capQty (k : Core) (ch : Nat) : Nat := fld k.capSel (8 * ch + 5) 3

/-- The captured word of a quantity. -/
def Slot.captured (x : Slot) (aux : Option Int) (qty : Nat) : Int :=
  match qty with
  | 0 => sat32 x.refLast
  | 1 => sat32 x.inLast
  | 2 => x.errLast
  | 3 => sat32 x.integ
  | 4 => x.outLast
  | 5 => x.tLast
  | 6 => x.gen.v / 65536
  | _ => sat32 (aux.getD 0)

/-- A channel takes a sample of a slot: enabled, running, selecting it, its trigger met. QTY 4 takes deliveries, the others samples. -/
def Core.takes (k : Core) (slot ch : Nat) (delivered trigger : Bool) : Bool :=
  k.capEn.getLsbD ch && k.capRun.getLsbD ch && k.capSlot ch = slot && ((k.capQty ch = 4) == delivered) &&
    (!k.capTrig || trigger || (elem? k.capCnt ch).getD 0 != 0)

/-- The channel after it has written a word. -/
def Core.wrote (k : Core) (ch sample : Nat) : Core :=
  let n := (elem? k.capCnt ch).getD 0
  let full := k.capDepth ≤ n + 1
  { k with capCnt := updNat k.capCnt ch fun _ => n + 1
           capFirst := if n = 0 then updNat k.capFirst ch fun _ => BitVec.ofNat 32 sample else k.capFirst
           capFull := if full then k.capFull ||| (1#4 <<< ch) else k.capFull
           capRun := if full then k.capRun &&& ~~~(1#4 <<< ch) else k.capRun }

/-- The channels of a core that took a slot which has gone stop: those of its samples, or those of its deliveries (R219). -/
def Core.lost (slot : Nat) (delivered : Bool) (k : Core) : Core :=
  let gone := [0, 1, 2, 3].foldl (fun (b : BitVec 4) ch =>
    if k.capRun.getLsbD ch && k.capSlot ch = slot && ((k.capQty ch = 4) == delivered) then b ||| (1#4 <<< ch) else b) 0
  { k with capMoved := k.capMoved ||| gone, capRun := k.capRun &&& ~~~gone }

namespace State

/-- A channel of core `c` writes its word for sample `k` of a slot it has as slot `i`. -/
def captureOne (c : Fin 4) (i k : Nat) (x : Slot) (aux : Option Int) (delivered trigger : Bool) (s : State) (ch : Nat) : State :=
  let core := s.core c
  if core.takes i ch delivered trigger then
    let a := 4 * (ch * core.capDepth + (elem? core.capCnt ch).getD 0)
    (s.onMem fun m => m.writeBytes (c.val + 1) a (leBytes 4 (twos 32 (x.captured aux (core.capQty ch))))).onCore c fun y => y.wrote ch k
  else s

/-- Every channel that takes the sample. -/
def capture (c : Fin 4) (i k : Nat) (x : Slot) (aux : Option Int) (delivered trigger : Bool) (s : State) : State :=
  [0, 1, 2, 3].foldl (State.captureOne c i k x aux delivered trigger) s

/-- The word of a delivery, in the core that computed the sample; its channels stop after the last such delivery of a slot that has
gone (R219). -/
def captureOut (c : Fin 4) (i : Fin 24) (o : Out) (s : State) : State :=
  match o.source with
  | some (a, b) =>
    match fin? 4 a with
    | some d =>
      let s1 := s.capture d b o.k (s.slot c i) none true o.testFirst
      if (s.slot c i).outs.any fun y => y.source == o.source then s1 else s1.onCore d (Core.lost b true)
    | none => s
  | none => s.capture c i.val o.k (s.slot c i) none true o.testFirst

/-! ## Load (R58) -/

/-- Cost of a slot's sample, with 24 cycles for an active test signal (R193). -/
def slotCost (x : Slot) : Nat := x.cfg.kind.cost + if x.ts.active then 24 else 0

/-- Cycles per second of a core's slots. -/
def coreLoad (c : Fin 4) (s : State) : Nat :=
  (s.core c).slots.toList.foldl (fun n x => if x.state = .free then n else n + slotCost x * x.cfg.rate) 0

end State

end Sys2Proof.Machine
end

