-- ==== Sys2Proof/WellFormed.lean ====
section
/-!
DEFINITION. The shapes a command's operands have by the spec. Instance numbers are bounded by their types; what is left are
lengths and ranges. A command whose operands do not have their shape is refused by name (`Refusal.illFormed`).
-/

namespace Sys2Proof

/-- A host access has at least one byte and at most one PCIe payload of 256 bytes (R30, R336). -/
def accessLengthOk (n : Nat) : Bool := 1 ≤ n && n ≤ 256

/-- A line-store window access is 1 to 8 bytes (R252). -/
def WinAccess.wellFormed : WinAccess → Bool
  | .read len => 1 ≤ len && len ≤ 8
  | .write bytes => 1 ≤ bytes.length && bytes.length ≤ 8

/-- Bytes of a host access. -/
def BusAccess.length : BusAccess → Nat
  | .read len => len
  | .write bytes => bytes.length

/-- The tries of a transaction (R172): it ends with the first that is acknowledged or stuck, or with the fourth. -/
def sbTriesOk : List SbTry → Nat → Bool
  | [], _ => false
  | [.nak], left => left == 1
  | [_], _ => true
  | .nak :: rest, left + 1 => sbTriesOk rest left
  | _, _ => false

/-- The operands have the shape the command's rule gives them. -/
def Instr.wellFormed : Instr → Bool
  | .registerWrite _ _ acc => accessLengthOk acc.length
  | .hostWindowAccess _ offset acc => acc.wellFormed && offset.toNat < 0x800000
  | .sidebandPoll _ tries _ _ _ => sbTriesOk tries 4
  | .sbTransferDone _ tries _ => sbTriesOk tries 4
  | .memCommandMessage _ fails => fails.all (· < 32)
  | .ttRegion fails => fails.all (· < 32)
  | .spiWrite _ bytes => accessLengthOk bytes.length
  | .spiRead _ len => accessLengthOk len
  | _ => true

end Sys2Proof
end

