-- ==== Sys2Proof/Machine/MemCommands.lean ====
section
/-!
DEFINITION. The commands of the memories: messages to and from the controllers (R245), bank power
(R249), scrubbing (R257 to R259) and the transparent test (R260, R261).
-/

namespace Sys2Proof.Machine

/-! ## Transparent test -/

/-- The next region the tester visits (R260): memories of the mask in MEMSEL order, regions rising, never-written blocks and
off banks skipped. `order` is the search order of memories, each with its first region. -/
def MemSys.nextRegion (m : MemSys) : List (Nat × Nat) → Option (Nat × Nat)
  | [] => none
  | (k, lo) :: rest =>
    match (m.get k).written.find? fun b => lo ≤ b && m.isWritten k (b * 256) with
    | some b => some (k, b)
    | none => m.nextRegion rest

/-- Memories still to visit in this pass, the present one from its next region on. -/
def MemSys.testAhead (m : MemSys) : List (Nat × Nat) :=
  (List.range 9).filterMap fun k =>
    if m.tt.mask.getLsbD k && m.tt.curMem ≤ k then some (k, if k = m.tt.curMem then m.tt.curRegion else 0) else none

/-- The memories of the mask from their first regions. -/
def MemSys.testAll (m : MemSys) : List (Nat × Nat) :=
  (List.range 9).filterMap fun k => if m.tt.mask.getLsbD k then some (k, 0) else none

/-- The region tested next, and whether none was left ahead in the pass: then it is the first of the next one. -/
def MemSys.chooseRegion (m : MemSys) : Option ((Nat × Nat) × Bool) :=
  match m.nextRegion m.testAhead with
  | some x => some (x, false)
  | none => (m.nextRegion m.testAll).map fun x => (x, true)

/-- A region is visited (R260): it counts in REGIONS, and with the last one ahead the pass counts in PASSES and the search starts again. -/
def MemSys.visit (k b : Nat) (wrapped : Bool) (m : MemSys) : MemSys :=
  let tt := { m.tt with regions := m.tt.regions + 1, passes := if wrapped then m.tt.passes + 1 else m.tt.passes, curMem := k, curRegion := b + 1 }
  let m1 := { m with tt := tt }
  if (m1.nextRegion m1.testAhead).isSome then m1
  else { m with tt := { tt with passes := tt.passes + 1, curMem := 0, curRegion := 0 } }

namespace State

/-- A word that fails a march read (R261): source 0x15, and a remap on a line store or capture RAM. -/
def marchFail (memsel a : Nat) (s : State) : State :=
  let s1 := (s.raise (memPlane memsel) 0x15 2 (wordIndex memsel a)).onMem fun m => { m with tt := { m.tt with failed := some a } }
  if memsel ≤ 4 then s1.remapWord memsel a else s1

/-- A controller tests a region (R260, R261): its failing words are reported; for 384 bank cycles its contents are served from the buffer,
so that reads and writes go on as before. -/
def testRegion (memsel region : Nat) (fails : List Nat) (s : State) : State :=
  fails.foldl (fun t w => t.marchFail memsel (region * 256 + w * 8))
    (s.onMem fun m => { m with tt := { m.tt with under := some (memsel, region), left := 384, failed := none } })

/-- MEM_TTRES takes the last failing word of a region tested (R261). -/
def noteTested (memsel : Nat) (failed : Option Nat) (s : State) : State :=
  s.onMem fun m =>
    match failed with
    | some a => { m with tt := { m.tt with resMem := memsel, resAddr := a } }
    | none => m

/-- The buffer is written back and the region restored; a controller of another plane reports it (R245). -/
def restoreRegion (memsel : Nat) (s : State) : State :=
  let s1 := s.onMem fun m => { m with tt := { m.tt with under := none, left := 0, failed := none } }
  if remoteMem memsel then s1.tellMem memsel (.tested s.mem.tt.failed) else s1.noteTested memsel s.mem.tt.failed

/-- One bank cycle of the region under test. -/
def testCycleMem (s : State) : State :=
  match s.mem.tt.under with
  | some (k, _) => if s.mem.tt.left ≤ 1 then s.restoreRegion k else s.onMem fun m => { m with tt := { m.tt with left := m.tt.left - 1 } }
  | none => s

/-- The tester may visit a region: EN, not paused (R277), the step before it over. -/
def mayTest (s : State) : Bool :=
  s.mem.tt.en && !s.mem.tt.paused && s.clocked && s.mem.tt.under.isNone && !s.mem.tt.asked

/-- A region is visited: by its controller at once, or by a TYPE 0x28 message to a controller of another plane (R245, R260). -/
def visitRegion (k b : Nat) (wrapped : Bool) (fails : List Nat) (s : State) : State :=
  let s1 := s.onMem (MemSys.visit k b wrapped)
  if remoteMem k then (s1.onMem fun m => { m with tt := { m.tt with asked := true } }).askMem k (.testRegion b)
  else s1.testRegion k b fails

end State

/-- TT_REGION (R260): EN, every INTERVAL µs, at a rung where the test is not paused (R277). -/
def execTtRegion (fails : List Nat) (s : State) : Res :=
  if (Instr.ttRegion fails).wellFormed then
    .next (match s.mem.chooseRegion with
      | some ((k, b), wrapped) => if s.mayTest then s.visitRegion k b wrapped fails else s
      | none => s)
  else refuseIllFormed

/-! ## Controller messages -/

namespace State

/-- A controller carries out a command (R245). A scrub command whose scrub is over, and a region never written or in an off bank, change
nothing; a remap entry serves its word from the cycle it is made (R256). -/
def memCommand (memsel : Nat) (c : MemCommand) (fails : List Nat) (s : State) : State :=
  match c with
  | .scrub first limit =>
    if s.mem.scrub.busy && !s.mem.scrub.active && s.mem.scrub.result.isNone && s.mem.scrub.run.memsel = memsel then
      s.onMem fun m => { m with scrub := { m.scrub with active := true, next := first, limit := limit } }
    else s
  | .scrubAbort =>
    if s.mem.scrub.active && s.mem.scrub.run.memsel = memsel then s.onMem fun m => { m with scrub := { m.scrub with halt := true } } else s
  | .testRegion b =>
    if s.mem.isWritten memsel (b * 256) && s.mem.tt.under.isNone then s.testRegion memsel b fails else s.tellMem memsel (.tested none)
  | .remap _ => s

/-- The MEM block takes a result (R245): a summary for SCRUB_DONE to post, or a region's end. -/
def memResult (memsel : Nat) (r : MemResult) (s : State) : State :=
  match r with
  | .scrubbed x =>
    s.onMem fun m => if m.scrub.busy && m.scrub.run.memsel = memsel then { m with scrub := { m.scrub with result := some x } } else m
  | .tested failed => (s.onMem fun m => { m with tt := { m.tt with asked := false } }).noteTested memsel failed

/-- The oldest TYPE 0x28 message a direction has accepted, with what it asks, where it is for this memory. -/
def nextTask (d : Fin 6) (memsel : Nat) (s : State) : Option (BitVec 96 × MemCommand) :=
  match s.arrived d typeMemCommand (fun _ => true), s.links.dirs[d.val].tasks with
  | some m, (k, c) :: _ => if k = memsel then some (m, c) else none
  | _, _ => none

/-- The oldest TYPE 0x29 message a direction has accepted, with what it reports, where it is of this memory. -/
def nextResult (d : Fin 6) (memsel : Nat) (s : State) : Option (BitVec 96 × MemResult) :=
  match s.arrived d typeMemResult (fun _ => true), s.links.dirs[d.val].results with
  | some m, (k, r) :: _ => if k = memsel then some (m, r) else none
  | _, _ => none

/-- The message and what it carries leave the direction. -/
def takeTask (d : Fin 6) (m : BitVec 96) (s : State) : State :=
  (s.takeMessage d m).onLinks fun l => { l with dirs := upd l.dirs d fun x => { x with tasks := x.tasks.drop 1 } }
def takeMemResult (d : Fin 6) (m : BitVec 96) (s : State) : State :=
  (s.takeMessage d m).onLinks fun l => { l with dirs := upd l.dirs d fun x => { x with results := x.results.drop 1 } }

end State

/-- MEM_COMMAND_MESSAGE (R245): the controller of a memory in the control or the data plane acts on the oldest TYPE 0x28 message its plane has
accepted; the memories of the management plane are reached without one. -/
def execMemCommandMessage (memsel : Fin 9) (fails : List Nat) (s : State) : Res :=
  if (Instr.memCommandMessage memsel fails).wellFormed then
    let d := fromManagement (memPlane memsel.val)
    .next (if s.clocked && remoteMem memsel.val then
      match s.nextTask d memsel.val with
      | some (m, c) => (s.takeTask d m).memCommand memsel.val c fails
      | none => s
    else s)
  else refuseIllFormed

/-- MEM_RESULT_MESSAGE (R245): the MEM block takes the oldest TYPE 0x29 message it has accepted from the memory's plane, which the operand
names (log entry 10). -/
def execMemResultMessage (memsel : Fin 9) (res : MemResult) (s : State) : Res :=
  let d := toManagement (memPlane memsel.val)
  .next (if s.clocked && remoteMem memsel.val then
    match s.nextResult d memsel.val with
    | some (m, r) => if r = res then (s.takeMemResult d m).memResult memsel.val r else s
    | none => s
  else s)

/-! ## Bank power -/

/-- A MEM_BANKPWR write, checked when it is made; it changes banks at once at L0 and L1 only (R249). -/
def State.writeBankPwr (value : Word) (s : State) : State :=
  s.onMem fun m =>
    let m1 := m.writeBankPwr (presentBanks s.sys.variant) s.top.image.regionBanks value
    if s.ladder.rung ≤ 1 then m1.applyBanks else m1

def execMemBankpwrWrite (value : Word) (s : State) : Res := .next (s.mgmtWrite (State.writeBankPwr value))

/-- BANK_READY (R249): a bank that is on becomes ready. -/
def execBankReady (bank : Fin 16) (s : State) : Res :=
  .next (s.onMem fun m =>
    if elem? m.banks bank.val = some .on then { m with ready := m.ready ||| (1#16 <<< bank.val) } else m)

/-! ## Scrub -/

/-- GO is refused while busy, for an absent memory, for a range past the memory's end (R257). -/
def State.scrubAllowed (s : State) : Bool :=
  let x := s.mem.scrub
  let size := memSize s.sys.variant x.memsel
  !x.busy && size != 0 && x.addr + x.len ≤ size

/-- GO (R257), over the range of MEM_SCRUBADDR and MEM_SCRUBLEN as they are now; a controller of another plane hears of it by a TYPE 0x28
message (R245). -/
def State.startScrub (s : State) : State :=
  if s.scrubAllowed then
    let x := s.mem.scrub
    let remote := remoteMem x.memsel
    let s1 := s.onMem fun m => { m with scrub := { x with
      busy := true, abort := false, active := !remote, halt := false, next := x.addr, limit := x.addr + x.len, back := none, ueRaised := false
      run := { memsel := x.memsel }, result := none, sum := { memsel := x.memsel } } }
    if remote then s1.askMem x.memsel (.scrub x.addr (x.addr + x.len)) else s1
  else s.onMem fun m => { m with scrub := { m.scrub with cerr := true } }

/-- SCRUB_GO (R257). -/
def execScrubGo (s : State) : Res := .next (s.mgmtWrite State.startScrub)

/-- ABORT (R257): the scrub ends after the word in progress. -/
def State.abortScrub (s : State) : State :=
  let x := s.mem.scrub
  if x.busy && !x.abort then
    let remote := remoteMem x.run.memsel
    let s1 := s.onMem fun m => { m with scrub := { x with abort := true, halt := x.halt || !remote } }
    if remote then s1.askMem x.run.memsel .scrubAbort else s1
  else s

/-- SCRUB_ABORT (R257). -/
def execScrubAbort (s : State) : Res := .next (s.mgmtWrite State.abortScrub)

/-- The scrub ends with its summary posted (R259): DONE, ABORTED after ABORT, and with a completed scrub the epoch of the memory's tracker
(R255). -/
def MemSys.endScrub (x : ScrubSum) (m : MemSys) : MemSys :=
  { m with scrub := { m.scrub with busy := false, done := true, aborted := m.scrub.aborted || m.scrub.abort, abort := false, active := false
                                   halt := false, back := none, result := none, sum := x }
           trackers := if m.scrub.abort then m.trackers else updNat m.trackers x.memsel fun _ => [] }

/-- The summary the MEM block holds is posted. -/
def State.postScrub (s : State) : State :=
  match s.mem.scrub.result with
  | some x => if s.mem.scrub.busy then s.onMem (MemSys.endScrub x) else s
  | none => s

/-- SCRUB_DONE (R257, R259): what the controller has not yet scrubbed is scrubbed; the summary is posted once the MEM block holds it. -/
def execScrubDone (s : State) : Res :=
  .next (if s.mem.scrub.active && s.memClocked s.mem.scrub.run.memsel then s.scrubRest.postScrub else s.postScrub)

/-- Entry to L2 aborts a scrub (R277): the summary of the words done is posted at once. -/
def State.stopScrub (s : State) : State :=
  if s.mem.scrub.busy then
    let s1 := s.scrubSettle
    s1.onMem fun m => { m with scrub := { m.scrub with abort := true } }.endScrub (m.scrub.result.getD m.scrub.run)
  else s

end Sys2Proof.Machine
end

