-- ==== Sys2Proof/Machine/PositionOps.lean ====
section
/-!
DEFINITION. What edges do beyond the axis estimator: reversals seen by the bound ports (R107), start-of-scan anchors (R108,
R110, R111), drop-detect edges (R140).
-/

namespace Sys2Proof.Machine

/-- Signed distance one position lies past another, in the sense of travel `up`. -/
def past (up : Bool) (x y : Int) : Int := if up then x - y else y - x

namespace State

/-- The direction an accepted edge gives a scan-mode sweep: of the latest edge for a bidirectional profile, else forward. -/
def sweepUp (p : Fin 4) (n : Fin 8) (s : State) : Bool :=
  if (s.prof p).bidir then (s.axis n).dirUp else (s.axis n).fwd != 2

/-- The direction of the sweep to come (R112): of the sweep that is run again, or the reverse of the last one's, or forward (log entry
21). -/
def comingUp (p : Fin 4) (n : Fin 8) (s : State) : Bool :=
  let q := (s.port p).sos
  match q.rerun with
  | some up => up
  | none => if (s.prof p).bidir then (q.held.getLast?.map fun a => !a.up).getD true else (s.axis n).fwd != 2

/-- The expected anchor: page mode A_i + SOSPITCH, scan mode SOSEXP or SOSEXPR by the direction, taken as the position nearest the
axis that equals it modulo 2^32 (R111). -/
def expected (p : Fin 4) (n : Fin 8) (up : Bool) (s : State) : Option Int :=
  let q := (s.port p).sos
  if (s.prof p).scan then
    let e := if up then q.exp else q.expr
    let x := s.axisPos n
    some (x + (e - BitVec.ofNat 32 (twos 32 x)).toInt)
  else q.held.getLast?.map fun a => a.pos + q.pitch.toNat

/-- The sense in which a port's next anchor is passed. -/
def anchorUp (p : Fin 4) (n : Fin 8) (s : State) : Bool := if (s.prof p).scan then s.comingUp p n else (s.axis n).fwd != 2

/-- The axis is past the window of the next anchor (R112). -/
def pastWindow (p : Fin 4) (n : Fin 8) (s : State) : Bool :=
  let up := s.anchorUp p n
  (s.expected p n up).any fun e => decide (((s.prof p).sosWindow : Int) < past up (s.axisPos n) e)

/-- Between sweeps a carriage that stands short of the coming window's end can pass it from then on (R112). -/
def watchApproach (n : Fin 8) (s : State) : State :=
  (s.axisPorts n).foldl (fun t p =>
    if (t.prof p).scan && (t.port p).sos.between && !t.pastWindow p n then
      t.onPort p fun q => { q with sos := { q.sos with nearing := true } }
    else t) s

/-- A port of the axis whose REV_BAND the excursion has passed (R107): page mode, or scan mode inside a sweep, armed and without a
seam. -/
def reversed (n : Fin 8) (s : State) (p : Fin 4) : Bool :=
  let q := s.port p
  let r := s.prof p
  q.arm.armed && q.seam.state = 0 && !(r.scan && (q.sos.between || q.sos.held = [])) && (s.axis n).exc.isSome &&
    decide ((r.revMax : Int) < (s.axis n).behind (s.axisCount n))

/-- The stop line of a reversal (R107): the last fired line, −1 where the arming has fired none (DESIGN CHOICE, log entry 136), or in
scan mode the end of the sweep. -/
def reversalStop (p : Fin 4) (s : State) : Int := if (s.prof p).scan then s.boundaryLine p else (s.port p).pdp.fired

/-- The ports of an axis compare an excursion's depth with their REV_BAND (R107): each one beyond it raises 0x42 and starts a seam of its
own; then the seams spread to the axis' other ports. -/
def watchReversal (n : Fin 8) (s : State) : State :=
  let l := (s.axisPorts n).filter (s.reversed n)
  let s1 := l.foldl (fun t p => (t.raise .data 0x42 4 p.val).ownCause p .rev (s.reversalStop p)) s
  l.foldl (fun t p => t.spreadSeam p) s1

/-- An edge of the sprig that feeds an axis (R98), after its COUNT has changed. -/
def axisEdge (n : Fin 8) (up : Bool) (time : Time48) (s : State) : State :=
  let s1 := s.onAxis n fun a => a.edge up (s.axisCount n) time
  if (s.axis n).fwd = 0 then s1 else (s1.watchReversal n).watchApproach n

/-- The anchor an edge at `time` gives: A = x_k − 64·(t_k − t_sos)·(VEL/16), rounded to nearest (R110, log entry 19). -/
def anchorAt (n : Fin 8) (time : Time48) (s : State) : Int :=
  divNearest (s.axisPos n * 200000000 - (s.axis n).velocity * since s.times.fab time) 200000000

end State

/-- The first line that follows a new anchor: 0, or LINES beyond the last anchor's; in scan mode the start of the next sweep, or of the
sweep that is run again (R110, R162). -/
def Port.anchorFirst (q : Port) (scan : Bool) : Nat :=
  if scan then
    match q.sos.rerun with
    | some _ => q.seam.res / q.sos.lines * q.sos.lines
    | none => (q.pdp.f + 1).toNat
  else match q.sos.held.getLast? with
    | some a => a.first + q.sos.lines
    | none => 0

/-- An edge outside an open window is counted in EARLY (R111). -/
def Port.sosEarly (q : Port) : Port := { q with sos := { q.sos with early := satAdd 0xFF q.sos.early 1 } }

/-- An edge while the axis is unsettled or in an excursion is counted in IGNORED (R111). -/
def Port.sosIgnored (q : Port) : Port := { q with sos := { q.sos with ignored := satAdd 0xFF q.sos.ignored 1 } }

/-- A taken anchor. Anchors whose lines have all committed are dropped. -/
def Port.takeAnchor (scan : Bool) (pos : Int) (up : Bool) (centre : Option Int) (q : Port) : Port :=
  let a : Anchor := ⟨pos, q.anchorFirst scan, up⟩
  let keep : List Anchor := if scan then [] else q.sos.held.filter fun x => decide (q.pdp.f < ((x.first + q.sos.lines : Nat) : Int))
  { q with sos := { q.sos with held := keep ++ [a], centre := centre, missed := false, between := false, nearing := false, rerun := none
                               last := BitVec.ofNat 32 (twos 32 pos), anchors := q.sos.anchors + 1 } }

namespace State

/-- The anchor of a scan-mode sweep empties the window, sets HWM to COUNT and, for a bidirectional profile, FWD to the sweep's
direction (R108). -/
def beginSweep (n : Fin 8) (bidir up : Bool) (s : State) : State :=
  s.onAxis n fun a => { a.rebased (s.axisCount n) with fwd := if bidir then (if up then 1 else 2) else a.fwd }

/-- A page-mode start-of-scan edge (R111). DESIGN CHOICE: after a missed anchor (R112) the next settled forward edge is an anchor without a
window, as after arming (log entry 137). -/
def sosPage (p : Fin 4) (n : Fin 8) (time : Time48) (s : State) : State :=
  let q := (s.port p).sos
  let w : Int := (s.prof p).sosWindow
  let x := s.anchorAt n time
  if !s.axisSettled n then s.onPort p Port.sosIgnored
  else if q.held = [] || q.missed then
    if (s.axis n).forwardVel > 0 then s.onPort p (Port.takeAnchor false x true none) else s
  else
    match s.expected p n true with
    | some e =>
      if q.lines != 0 && e - w ≤ x && x ≤ e + w then s.onPort p (Port.takeAnchor false x true (some e))
      else if q.centre.any fun c => c - w ≤ x && x ≤ c + w then s else s.onPort p Port.sosEarly
    | none => s.onPort p Port.sosEarly

/-- A scan-mode start-of-scan edge (R108, R111, R162). Between sweeps the excursion that the carriage's travel is until the anchor does not
hide the mark (log entry 21); an edge of another direction than the sweep's is ignored in it, and is early elsewhere. DESIGN CHOICE: after
a missed anchor (R112) the next edge of the sweep is taken without a window (log entry 137). -/
def sosScan (p : Fin 4) (n : Fin 8) (time : Time48) (s : State) : State :=
  let q := (s.port p).sos
  let r := s.prof p
  let w : Int := r.sosWindow
  let x := s.anchorAt n time
  let up := s.sweepUp p n
  let moving := r.bidir || (s.axis n).dirUp == ((s.axis n).fwd != 2)
  let take (c : Option Int) (t : State) := (t.onPort p (Port.takeAnchor true x up c)).beginSweep n r.bidir up
  let away := (s.axis n).exc.isSome
  if q.held = [] then
    (if !s.axisSettled n then s.onPort p Port.sosIgnored else if (s.axis n).forwardVel > 0 then take none s else s)
  else if !q.between then
    (if !s.axisSettled n then s.onPort p Port.sosIgnored
     else if q.centre.any fun c => c - w ≤ x && x ≤ c + w then s else s.onPort p Port.sosEarly)
  else if !away && !s.axisSettled n then s.onPort p Port.sosIgnored
  else if (q.rerun.map fun d => d == up).getD true && moving then
    match s.expected p n up with
    | some e => if q.missed || (e - w ≤ x && x ≤ e + w) then take (some e) s else s.onPort p Port.sosEarly
    | none => s
  else s.onPort p (if away then Port.sosIgnored else Port.sosEarly)

/-- An edge of the port's start-of-scan sprig (R110, R111). -/
def sosEdge (p : Fin 4) (time : Time48) (s : State) : State :=
  match s.portAxis p with
  | some n =>
    if (s.port p).arm.armed then (if (s.prof p).scan then s.sosScan p n time else s.sosPage p n time) else s
  | none => s

/-- An edge of the port's drop-detect sprig, kept for the test cycle in progress (R140). -/
def dropEdge (p : Fin 4) (time : Time48) (s : State) : State :=
  s.onPort p fun q => if q.test.busy then { q with test := { q.test with edges := q.test.edges ++ [time] } } else q

end State

end Sys2Proof.Machine
end

