-- ==== Sys2Proof/Machine/SprigOps.lean ====
section
/-!
DEFINITION. Shared operations of sprigs: registers by mode, commit checks, boundaries, PWM edge placement, terminal levels, accepted
input edges (R73 to R97).
-/

namespace Sys2Proof.Machine

/-! ## Structure -/

/-- A register of four words. -/
def reg (v : Vector Word 4) (k : Fin 4) : Nat := v[k.val].toNat

/-- The shadows and active parameters of a sprig after activation (R82 to R94). -/
def initialRegs (mode p0 p1 p2 : Nat) : Vector Word 4 :=
  let w (n : Nat) : Word := BitVec.ofNat 32 n
  match mode with
  | 1 => #v[0, w p0, w p1, w p2]
  | 2 => #v[0, w (0x10000 + p0), w p1, w p2]
  | 5 => #v[0, w p1, 0, 0]
  | 6 | 8 => #v[w p0, 0, 0, 0]
  | _ => #v[0, 0, 0, 0]

/-- A sprig as its record configures it; a ganged sprig of position 1 or 2 holds a duty only (R84). -/
def SprigRec.toSprig (r : SprigRec) (gang : Nat) : Sprig :=
  let v := if gang = 0 then initialRegs r.mode r.p0 r.p1 r.p2 else #v[0, 0, 0, 0]
  { mode := r.mode, loopOwned := r.loopOwned, wake := r.wake, adc := r.adc, gang, p0 := r.p0, p1 := r.p1, p2 := r.p2
    shadow := v, act := v }

/-- Input-only modes (R79). -/
def inputOnly (mode : Nat) : Bool := [3, 6, 7, 8, 0xA].contains mode

/-- A terminal is an output of the sprig (R81). -/
def Sprig.isOutput (g : Sprig) (t : Nat) : Bool :=
  match g.mode with
  | 1 | 2 | 5 => t < 2
  | 4 => t < 3
  | 9 => g.p0.testBit t
  | _ => false

/-- A terminal is an input of the sprig. -/
def Sprig.isInput (g : Sprig) (t : Nat) : Bool :=
  match g.mode with
  | 3 => t < 3
  | 6 => true
  | 7 | 8 | 0xA => t = 0
  | 9 => !g.p0.testBit t
  | _ => false

/-- The bits of a shadow register that exist (R82 to R94); SH1 of a gang holds ALIGN at 1 and MAP at 0 (R83, R84). -/
def shadowMask (mode gang : Nat) (k : Fin 4) : Nat :=
  match mode, k with
  | 1, 0 => 0x3FFFF
  | 1, 1 => 0x3FFFF
  | 1, 2 => 0x3FF
  | 1, 3 => 0x3FFFF
  | 2, 0 => 0x3FFFF
  | 2, 1 => if gang = 0 then 0xFFFF else 0
  | 2, 2 => if gang = 0 then 0x3FF else 0
  | 2, 3 => if gang = 0 then 0x3FFFF else 0
  | 3, 0 => 0xFFFFFFFF
  | 3, 1 => 1
  | 4, 0 => 0xFFFFFFFF
  | 4, 1 => 0xFFFFFFFF
  | 4, 2 => 1
  | 5, 0 => 1
  | 5, 1 => 0xFFFF
  | 5, 2 => 0xFFF
  | 6, 0 => 0xFF
  | 8, 0 => 0xFFFFF
  | 9, 0 => 0xF
  | _, _ => 0

/-- A field the slot sets on a LOOP_OWNED sprig: host writes to it are ignored (R80). -/
def slotSets (mode : Nat) (k : Fin 4) : Bool :=
  match mode with
  | 1 | 2 | 4 => k = 0
  | 5 => k.val ≤ 1
  | _ => false

/-- A host write to a shadow register; `mapHeld` for a sprig whose MAP stays 0 (R83). -/
def Sprig.writeShadow (k : Fin 4) (w : Word) (mapHeld : Bool) (g : Sprig) : Sprig :=
  if g.loopOwned && slotSets g.mode k then g
  else
    let v := w.toNat &&& shadowMask g.mode g.gang k
    let v1 := if g.mode = 1 && k = 1 && mapHeld then v &&& 0x1FFFF else v
    let v2 := if g.mode = 2 && k = 1 && g.gang = 0 then v1 + 0x10000 else v1
    { g with shadow := g.shadow.set k.val (BitVec.ofNat 32 v2) k.isLt }

namespace State

/-- The slot whose output the sprig carries, wherever it has migrated. -/
def sprigDriver (n : Nat) (s : State) : Option Slot :=
  (allSlots.map fun x => s.slot x.1 x.2).find? fun x => x.state != .free && x.cfg.outKind = 1 && x.cfg.outIndex = n

/-- MAP of the sprig stays 0: a heater or pressure slot drives it (R83). -/
def mapHeld (n : Nat) (s : State) : Bool := (s.sprigDriver n).any fun x => x.cfg.law = 4 || x.cfg.law = 5

/-! ## Commit checks (R77) -/

/-- A loop slot that reads the axis or the sprig is not parked (R87). -/
def readerRuns (n axis : Nat) (s : State) : Bool :=
  allSlots.any fun x =>
    let y := s.slot x.1 x.2
    let reads (kind index : Nat) : Bool := (kind = 1 && index = axis) || (kind = 2 && index = n)
    (y.state = .running || y.state = .holding) &&
      (reads y.cfg.inKind y.cfg.inIndex || reads y.cfg.auxKind y.cfg.auxIndex || (y.cfg.dq && y.par.encsel = axis))

/-- Duty values of a PWM sprig or gang within the period. -/
def dutiesOk (n : Fin 96) (g : Sprig) (s : State) : Bool :=
  let tp := 4 * (reg g.shadow 1 % 65536)
  let duty (k : Nat) : Nat := ((elem? s.fab.sprigs k).map fun m => reg m.shadow 0).getD 0
  if g.loopOwned then true
  else if g.mode = 2 then duty n.val ≤ tp && duty (n.val + 1) ≤ tp && duty (n.val + 2) ≤ tp
  else reg g.shadow 0 ≤ tp

/-- The shadow passes the mode's checks (R77, R82, R87, R90, R93). -/
def commitOk (n : Fin 96) (s : State) : Bool :=
  let g := s.sprig n
  match g.mode with
  | 1 | 2 =>
    let per := reg g.shadow 1 % 65536
    let dt := reg g.shadow 2
    20 ≤ per && 8 ≤ dt && 2 * dt < 4 * per && reg g.shadow 3 < 4 * per && s.dutiesOk n g
  | 3 =>
    !((g.shadow[1]).getLsbD 0) ||
      (match fin? 8 g.p0 with
        | some a => !s.axisArmed a && !s.readerRuns n.val a.val
        | none => !s.readerRuns n.val 0xFF)
  | 5 => reg g.shadow 2 ≤ reg g.shadow 1 && reg g.shadow 1 + reg g.shadow 2 ≤ g.p0
  | 8 => 1 ≤ reg g.shadow 0 && reg g.shadow 0 ≤ 1000000
  | _ => true

/-- The pending set a COMMIT forms: the whole shadow, with the gang's other two duties (R75, R84). -/
def pendingSet (n : Fin 96) (idle : Bool) (s : State) : PendSet :=
  let duty (k : Nat) : Word := ((elem? s.fab.sprigs k).map fun m => m.shadow[0]).getD 0
  { regs := (s.sprig n).shadow, idle, dutyV := duty (n.val + 1), dutyW := duty (n.val + 2), cycle := s.times.fab }

/-- COMMIT of a sprig, with or without IDLE (R75, R77, R79). It is ignored in the safe state (R95), on the upper sprigs of a gang
(R84) and where the mode has no shadow (R92). -/
def commitSprig (n : Fin 96) (idle : Bool) (s : State) : State :=
  let g := s.sprig n
  if s.flt.safe || g.gang != 0 || g.mode = 0 then s
  else if idle && inputOnly g.mode then s.onSprig n fun x => { x with cerr := true }
  else if g.mode = 7 || g.mode = 0xA then s
  else if s.commitOk n then s.onSprig n fun x => { x with pend := some (s.pendingSet n idle) }
  else s.onSprig n fun x => { x with cerr := true }

/-- DISCARD (R75). -/
def discardSprig (n : Fin 96) (s : State) : State := s.onSprig n fun x => { x with pend := none }

end State

/-! ## PWM (R82, R83) -/

/-- D from a slot output in Q1.30 (R83). -/
def dutyOf (tp : Nat) (map : Bool) (u : Int) : Nat :=
  let d := if map then divNearest ((1073741824 + u) * tp) 2147483648 else divNearest (max u 0 * tp) 1073741824
  (clampInt 0 tp d).toNat

/-- The sides wanted on in a period, each from a step on; high is true. `goes`: a period went before; `kept`: it ended with the high side
on. In centre alignment the low-side pulse at the start is the one that began in that period, emitted or suppressed whole (log entry
59). -/
def pwmTargets (tp d dt mp : Nat) (centred goes kept : Bool) : List (Nat × Bool) :=
  let lowShort : Bool := tp - d < dt + mp
  let highShort : Bool := d < tp && d < dt + mp
  if d = 0 || highShort then [(0, false)]
  else if lowShort then (if centred && goes then [((tp - d) / 2, true)] else [(0, true)])
  else if centred then (if goes && kept then [] else [(0, false), ((tp - d) / 2, true)]) ++ [((tp - d) / 2 + d, false)]
  else [(0, true), (d, false)]

/-- Edges placed so far, with the levels they lead to. -/
structure Placing where
  edges : List PwmEdge
  high : Bool
  low : Bool

/-- One side takes over at step `t`: the other falls there and it rises DEADTIME later; a rise of the other still to come is
withdrawn, and with the other off it rises at once. -/
def Placing.switch (dt : Nat) (a : Placing) (x : Nat × Bool) : Placing :=
  let on := if x.2 then a.high else a.low
  let other := if x.2 then a.low else a.high
  let set (es : List PwmEdge) : Placing := if x.2 then ⟨es, true, false⟩ else ⟨es, false, true⟩
  if on then a
  else if other then
    let late (e : PwmEdge) : Bool := e.high != x.2 && e.level && x.1 ≤ e.step
    if a.edges.any late then set (a.edges.filter (fun e => !late e) ++ [⟨x.1, x.2, true⟩])
    else set (a.edges ++ [⟨x.1, !x.2, false⟩, ⟨x.1 + dt, x.2, true⟩])
  else set (a.edges ++ [⟨x.1, x.2, true⟩])

/-- Level of a side at a step of the period. -/
def Pwm.level (w : Pwm) (high : Bool) (k : Nat) : Bool :=
  match (w.edges.filter fun e => e.high = high && e.step ≤ k).getLast? with
  | some e => e.level
  | none => if high then w.highAtStart else w.lowAtStart

/-- A new period (R82): edges of the last one that fall beyond its end stand in this one. -/
def Pwm.begin (w : Pwm) (now : Time48) (tp d dt mp : Nat) (centred : Bool) : Pwm :=
  let carry := (w.edges.filter fun e => w.len ≤ e.step).map fun e => { e with step := e.step - w.len }
  let h := if w.len = 0 then w.highAtStart else w.level true (w.len - 1)
  let l := if w.len = 0 then w.lowAtStart else w.level false (w.len - 1)
  let a := (pwmTargets tp d dt mp centred (w.len != 0) h).foldl (Placing.switch dt)
    ⟨carry, h || carry.any (fun e => e.high && e.level), l || carry.any fun e => !e.high && e.level⟩
  { periods := w.periods + 1, dApplied := d, start := now, len := tp, highAtStart := h, lowAtStart := l, edges := a.edges }

/-! ## Levels -/

/-- The route of a sprig terminal. -/
def Image.route (i : Image) (n t : Nat) : Option RouteRec := i.routes.find? fun r => r.sprig = n && r.term = t

/-- A level code of R61 as the terminal level that gives the pin level; none for high impedance. -/
def codeLevel (code : Nat) (invert : Bool) : Option Bool :=
  match code with
  | 0 => some invert
  | 1 => some !invert
  | _ => none

namespace State

/-- The safe or hold level of an output terminal (R61). -/
def restLevel (n t : Nat) (hold : Bool) (s : State) : Option Bool :=
  match s.top.image.safes.find? fun r => r.output = 4 * n + t, s.top.image.route n t with
  | some r, some w => codeLevel (if hold && r.hold != 3 then r.hold else r.safe) w.invert
  | _, _ => none

/-- The level an active sprig gives a terminal. DIR moves at its edge, not before (R88). -/
def activeLevel (g : Sprig) (t : Nat) (s : State) : Bool :=
  match g.mode with
  | 1 | 2 => g.pwm.level (t = 0) (since s.times.fab g.pwm.start)
  | 4 => match t with
    | 0 => g.step.pulse.any fun e => later e s.times.fab
    | 1 => (g.step.dir != g.step.setup.any fun e => later e s.times.fab) != Config.dirForward
    | _ => (g.act[2]).getLsbD 0
  | 5 => if t = 0 then g.peak.drive else g.peak.phase != 0
  | 9 => (g.act[0]).getLsbD t
  | _ => false

/-- The level driven on an output terminal: the active set's, or the safe or HOLD level (R79, R95, R96); none where it is not
driven. -/
def termLevel (n : Fin 96) (t : Nat) (s : State) : Option Bool :=
  let g := s.sprig n
  if !g.isOutput t then none
  else if g.active && !s.flt.safe && !g.holdLvl then some (s.activeLevel g t)
  else s.restLevel n.val t (g.holdLvl && !s.flt.safe)

/-- TOUT of a sprig; a terminal that is not driven reads 0. -/
def tout (n : Fin 96) (s : State) : Nat :=
  (List.range 4).foldl (fun m t => m + (if s.termLevel n t = some true then 2 ^ t else 0)) 0

/-- The output terminal routed to a pin drives it: pin level after invert, none where it is released (R71). -/
def pinDrive (pin : Nat) (s : State) : Option Bool :=
  match s.top.image.routes.find? fun r => r.out && r.pin = pin with
  | some r =>
    match fin? 96 r.sprig with
    | some n => (s.termLevel n r.term).bind fun v =>
        let p := v != r.invert
        if r.openDrain && p then none else some p
    | none => none
  | none => none

/-- The supply of a pin's fabric bank is absent, or the pin lies beyond the last bank (R72). -/
def unsupplied (pin : Nat) (s : State) : Bool := (elem? s.env.viof (pin / 30)).all (· = 0)

/-- The pull at a pin: the routes' (R71), or the weak pull-down of a pin no route names (R70); none where no pull, or two opposed
ones, act. -/
def pinPull (pin : Nat) (s : State) : Option Bool :=
  let named := s.top.image.routes.filter fun r => r.pin = pin
  let up := named.any (·.pullUp)
  if named.isEmpty then some false else if up != named.any (·.pullDown) then some up else none

/-- Pin level at the pad, given what the board drives: the output's level, else the board's, else the pull's (R70 to R72). A pin that
nothing drives and nothing pulls has a free level, which may change at any time (log entry 64). -/
def padLevel (pin : Nat) (board : Option Bool) (s : State) : Bool :=
  if s.unsupplied pin then false
  else match (s.pinDrive pin).or board, s.pinPull pin with
    | some v, _ => v
    | none, some v => v
    | none, none => Config.floatingPin pin s.times.fab

/-- Pin level at the pad. -/
def pinLevel (pin : Nat) (s : State) : Bool := s.padLevel pin ((elem? s.fab.pads pin).bind (·.drive))

/-- The board's drive at a pin becomes `board`; a level that changes with it has its transition at `time`. -/
def movePad (pin : Nat) (board : Option Bool) (time : Time48) (s : State) : State :=
  let v := s.padLevel pin board
  s.onFab fun b => { b with pads := updNat b.pads pin fun p =>
    if v = p.level then { p with drive := board } else { drive := board, level := v, since := time } }

end State

/-! ## Boundaries (R75, R76, R80) -/

/-- The active set a boundary forms from a pending set: on a LOOP_OWNED sprig the slot's fields stay. -/
def Sprig.takeSet (p : PendSet) (g : Sprig) : Sprig :=
  let pick (k : Fin 4) : Word := if g.loopOwned && slotSets g.mode k then g.act[k.val] else p.regs[k.val]
  { g with act := #v[pick 0, pick 1, pick 2, pick 3], pend := none, set := !g.set }

/-- The slot's output enters the active set (R83, R89, R90). -/
def Sprig.takeSlot (o : SlotOut) (g : Sprig) : Sprig :=
  let tp := 4 * (reg g.act 1 % 65536)
  match o with
  | .duty u => { g with act := g.act.set 0 (BitVec.ofNat 32 (dutyOf tp ((g.act[1]).getLsbD 17) u)) }
  | .duties u _ _ => { g with act := g.act.set 0 (BitVec.ofNat 32 (dutyOf tp false u)) }
  | .rate u => { g with act := g.act.set 0 (BitVec.ofNat 32 (twos 32 (divNearest (u * (16 * g.p0)) 1073741824))) }
  | .onHold on hold => { g with act := (g.act.set 0 (BitVec.ofNat 32 on.toNat)).set 1 (BitVec.ofNat 32 hold) }
  | .park => g

/-- A change of the rate's sign (R88): the phase starts anew, and DIR moves at the boundary or at the end of the STEP pulse that runs,
unless an edge still to come is called off. -/
def Stepper.turn (now : Time48) (k : Stepper) : Stepper :=
  let edge := match k.pulse with
    | some e => laterTime e now
    | none => now
  { k with phase := 0, dir := !k.dir, setup := if k.setup.any fun e => later e now then none else some edge }

/-- A new rate of a step generator (R88, R89): clamped to P0 steps/s; a LIMIT that has run out keeps the rate at 0 (log entry 62). -/
def Sprig.takeRate (now : Time48) (reload : Bool) (g : Sprig) : Sprig :=
  let r := (g.act[0]).toInt
  let top : Int := 16 * g.p0
  let c := clampInt (-top) top r
  let limit := reg g.act 1
  let remain := if reload then limit else g.step.remain
  let k := if c != 0 && decide (c < 0) != g.step.dir then g.step.turn now else g.step
  { g with step := { k with rate := if limit != 0 && remain = 0 then 0 else c, remain }
           event := if c != r then g.event ||| 2 else g.event }

/-- The sprig goes idle: its outputs return to their safe levels (R79). -/
def Sprig.goIdle (g : Sprig) : Sprig :=
  { g with active := false, holdLvl := false, slotOut := none, pwm := { g.pwm with edges := [], len := 0 }
           peak := { g.peak with phase := 0, drive := false }, step := { g.step with rate := 0, phase := 0 } }

/-- A sprig under the safe-state lines, or in the hold of an activation: idle, its pending set and slot output dropped (R66, R95). -/
def Sprig.toSafe (g : Sprig) : Sprig := { g.goIdle with pend := none }

/-- The pending set a boundary in FAB cycle `now` applies: one committed in an earlier cycle (R76). -/
def Sprig.dueSet (now : Time48) (g : Sprig) : Option PendSet := g.pend.filter fun p => p.cycle != now

/-- The slot output a boundary in FAB cycle `now` applies (R76). -/
def Sprig.dueOut (now : Time48) (g : Sprig) : Option SlotOut := if g.slotCycle = now then none else g.slotOut

/-- What a boundary does to the sprig itself (R75, R76, R79, R80, R96): a commit with IDLE or a parked slot makes it idle, and a slot
output due with them is not applied; one that arrived in this very cycle waits for the next boundary. -/
def Sprig.boundary (now : Time48) (safeHigh safeLow : Bool) (g : Sprig) : Sprig :=
  let p := g.dueSet now
  let o := g.dueOut now
  let g1 := match p with
    | some x => g.takeSet x
    | none => g
  let waits := if o.isSome then none else g.slotOut
  if p.isNone && o.isNone then g
  else if (p.any fun x => x.idle) || o = some .park then { g1.goIdle with slotOut := waits }
  else
    let g2 := match o with
      | some x => g1.takeSlot x
      | none => g1
    let wake := !inputOnly g.mode && (g.active || (if g.loopOwned then o.isSome else p.isSome))
    let g3 := { g2 with slotOut := waits, active := wake, holdLvl := false
                        pwm := if g.active && !g.holdLvl then g.pwm else { g.pwm with highAtStart := safeHigh, lowAtStart := safeLow, len := 0, edges := [] } }
    if g.mode = 4 then g3.takeRate now p.isSome else g3

/-- FAB cycle `now` holds a boundary of the sprig that no other command brings (R76): a PWM period's start, or any cycle for an idle PWM
sprig and the modes without periods, gates or samples. -/
def Sprig.atBoundary (now : Time48) (g : Sprig) : Bool :=
  match g.mode with
  | 1 | 2 => !g.active || g.pwm.len ≤ since now g.pwm.start
  | 5 | 8 => false
  | _ => true

namespace State

/-- A duty of a gang's upper sprig, active and as SH0 shows it (R84). -/
def putDuty (k : Nat) (w : Word) (s : State) : State :=
  s.onFab fun b => { b with sprigs := updNat b.sprigs k fun m =>
    { m with act := m.act.set 0 w, shadow := if m.loopOwned then m.shadow.set 0 w else m.shadow } }

/-- An upper sprig of a gang leaves or enters idle with its leader, which was `g` before the boundary (R84). -/
def followLeader (k : Nat) (g lead : Sprig) (s : State) : State :=
  let rest : Pwm := { highAtStart := (s.restLevel k 0 g.holdLvl).getD false, lowAtStart := (s.restLevel k 1 g.holdLvl).getD false }
  s.onFab fun b => { b with sprigs := updNat b.sprigs k fun m =>
    { m with active := lead.active, holdLvl := lead.holdLvl
             pwm := if g.active && !g.holdLvl && lead.active then m.pwm else { rest with periods := m.pwm.periods } } }

/-- The gang's upper sprigs take their duties at the leader's boundary (R84); a boundary that makes the gang idle applies no slot
output (R80). -/
def gangDuties (n : Fin 96) (g : Sprig) (s : State) : State :=
  let lead := s.sprig n
  let tp := 4 * (reg lead.act 1 % 65536)
  let s1 := (s.followLeader (n.val + 1) g lead).followLeader (n.val + 2) g lead
  match g.dueOut s.times.fab, g.dueSet s.times.fab with
  | some (.duties _ v w), _ =>
    if lead.active then
      (s1.putDuty (n.val + 1) (BitVec.ofNat 32 (dutyOf tp false v))).putDuty (n.val + 2) (BitVec.ofNat 32 (dutyOf tp false w))
    else s1
  | _, some p => if g.loopOwned then s1 else (s1.putDuty (n.val + 1) p.dutyV).putDuty (n.val + 2) p.dutyW
  | _, none => s1

/-- An applied LOAD (R87): the count takes PRESET, the axis as R104, and the active copy of LOAD clears. -/
def applyLoad (n : Fin 96) (s : State) : State :=
  let g := s.sprig n
  if g.mode = 3 && (g.act[1]).getLsbD 0 then
    let s1 := s.onSprig n fun x =>
      { x with quad := { x.quad with count := x.act[0] }, act := x.act.set 1 0 }
    match fin? 8 g.p0 with
    | some a => s1.onAxis a (Axis.loaded g.act[0])
    | none => s1
  else s

/-- A boundary of a sprig (R76): while its outputs are held nothing is applied (R66, R95). -/
def applyBoundary (n : Fin 96) (s : State) : State :=
  let g := s.sprig n
  if s.clocked && !s.outputsHeld && g.gang = 0 && g.mode != 0 then
    let high := (s.restLevel n.val 0 g.holdLvl).getD false
    let low := (s.restLevel n.val 1 g.holdLvl).getD false
    let s1 := s.onSprig n (Sprig.boundary s.times.fab high low)
    (if g.mode = 2 && ((g.dueSet s.times.fab).isSome || (g.dueOut s.times.fab).isSome) then s1.gangDuties n g else s1).applyLoad n
  else s

/-- The boundary that stands in this FAB cycle, if any. -/
def sprigBoundary (n : Fin 96) (s : State) : State := if (s.sprig n).atBoundary s.times.fab then s.applyBoundary n else s

/-- One PWM sprig of a period that starts, with the timing of its leader. -/
def placePeriod (k : Nat) (lead : Sprig) (s : State) : State :=
  let tp := 4 * (reg lead.act 1 % 65536)
  s.onFab fun b => { b with sprigs := updNat b.sprigs k fun m =>
    let centred := lead.mode = 2 || (lead.act[1]).getLsbD 16
    { m with pwm := m.pwm.begin s.times.fab tp (min tp (reg m.act 0)) (reg lead.act 2) (reg lead.act 3) centred } }

/-! ## Accepted input edges (R73) -/

/-- An edge of a start-of-scan or drop-detect sprig is accepted (R92). -/
def senseEdge (n : Fin 96) (time : Time48) (s : State) : State :=
  let g := s.sprig n
  let s1 := s.onSprig n fun x =>
    { x with sos := { x.sos with time := time, count := x.sos.count + 1, candidate := none }, event := x.event ||| 1 }
  match fin? 4 g.p0 with
  | some p => if g.mode = 7 then s1.sosEdge p time else s1.dropEdge p time
  | none => s1

/-- The new level has lasted P2 ns at time `t` (R92). -/
def lasted (g : Sprig) (since0 t : Time48) : Bool := 4 * g.p2 ≤ 5 * since t since0

/-- A level change on a start-of-scan or drop-detect terminal: it ends the wait of an earlier edge, and an edge of the sense in P1
qualifies now or waits (R92). -/
def senseChange (n : Fin 96) (level : Bool) (stamp : Time48) (s : State) : State :=
  let g := s.sprig n
  let s1 := match g.sos.candidate with
    | some c => if lasted g c stamp then s.senseEdge n c else s.onSprig n fun x => { x with sos := { x.sos with candidate := none } }
    | none => s
  if (g.p1 = 1 && level) || (g.p1 = 2 && !level) then
    if lasted g stamp s.times.fab then s1.senseEdge n stamp
    else s1.onSprig n fun x => { x with sos := { x.sos with candidate := some stamp } }
  else s1

/-- Quadrature edges (R86): both terminals at once are an illegal transition; one counts up when A leads B. -/
def quadChange (n : Fin 96) (old new : BitVec 4) (stamp : Time48) (s : State) : State :=
  let a := old.getLsbD 0 != new.getLsbD 0
  let b := old.getLsbD 1 != new.getLsbD 1
  let axis := fin? 8 (s.sprig n).p0
  if a && b then
    let s1 := s.onSprig n fun x =>
      { x with quad := { x.quad with illegal := satAdd 0xFFFF x.quad.illegal 1 }, event := x.event ||| 2 }
    match axis with
    | some k => s1.onAxis k Axis.illegal
    | none => s1
  else if a || b then
    let up := if a then new.getLsbD 0 != new.getLsbD 1 else new.getLsbD 0 == new.getLsbD 1
    let s1 := s.onSprig n fun x => { x with quad := { x.quad with count := if up then x.quad.count + 1 else x.quad.count - 1 } }
    match axis with
    | some k => s1.axisEdge k up stamp
    | none => s1
  else s

/-- An accepted rising edge of the index (R87), after any change of A or B of the same cycle. -/
def indexEdge (n : Fin 96) (s : State) : State :=
  let g := s.sprig n
  let seen (x : Sprig) : Sprig := { x with quad := { x.quad with idxCount := x.quad.idxCount + 1 }, event := x.event ||| 1 }
  match g.p1 with
  | 1 => s.onSprig n fun x => { seen x with quad := { (seen x).quad with idxLatch := x.quad.count } }
  | 2 =>
    let s1 := s.onSprig n fun x => { seen x with quad := { (seen x).quad with count := 0 } }
    match fin? 8 g.p0 with
    | some a => s1.onAxis a (Axis.loaded 0)
    | none => s1
  | _ => s

/-- Capture (R91): the edges selected enter a terminal's queue of four, or are lost. -/
def captureChange (n : Fin 96) (old new : BitVec 4) (stamp : Nat → Time48) (s : State) : State :=
  s.onSprig n fun x => (List.finRange 4).foldl (fun (y : Sprig) t =>
    let rise := new.getLsbD t.val
    let sel := bitsOf (reg y.act 0) (2 * t.val) 2
    if old.getLsbD t.val != rise && sel.testBit (if rise then 0 else 1) then
      if (y.cap.queues[t.val]).length < 4 then
        { y with cap := { y.cap with queues := upd y.cap.queues t fun q => q ++ [⟨stamp t.val, rise, false⟩] } }
      else { y with cap := { y.cap with lost := y.cap.lost ||| (1#4 <<< t.val) } }
    else y) x

/-- A rising edge in a tach's gate (R93). -/
def tachEdge (n : Fin 96) (stamp : Time48) (s : State) : State :=
  s.onSprig n fun x => { x with tach := { x.tach with
    count := x.tach.count + 1, first := if x.tach.count = 0 then stamp else x.tach.first
    prev := x.tach.last, last := some stamp } }

/-- The input route of a terminal. -/
def inputRoute (n : Fin 96) (t : Nat) (s : State) : Option RouteRec :=
  (s.top.image.route n.val t).filter fun r => !r.out && (s.sprig n).isInput t

/-- What the board does at the sprig's pins, each transition at its instant, and what the pads show now (R72). -/
def senseInputs (n : Fin 96) (changes : List PinChange) (s : State) : State :=
  let s1 := changes.foldl (fun t c => match t.inputRoute n c.term.val with
    | some r => t.movePad r.pin c.drive c.time
    | none => t) s
  (List.range 4).foldl (fun t k => match t.inputRoute n k with
    | some r => t.movePad r.pin ((elem? t.fab.pads r.pin).bind (·.drive)) t.times.fab
    | none => t) s1

/-- The pad an input terminal sees. -/
def inputPad (n : Fin 96) (t : Nat) (s : State) : Option (Pad × Bool) :=
  (s.inputRoute n t).bind fun r => (elem? s.fab.pads r.pin).map fun p => (p, r.invert)

/-- The level a terminal's filter shows (R73): the raw level once three samples, 5 ns apart, have shown it since its last transition;
until then the level accepted before. -/
def filtered (n : Fin 96) (t : Nat) (s : State) : Bool :=
  match s.inputPad n t with
  | some (p, invert) =>
    if 8 ≤ since s.times.fab p.since && since s.times.fab p.since < 2 ^ 47 then p.level != invert else (s.sprig n).tin.getLsbD t
  | none => false

/-- The levels the filters show on the four terminals. -/
def filteredLevels (n : Fin 96) (s : State) : BitVec 4 :=
  BitVec.ofBoolListLE [s.filtered n 0, s.filtered n 1, s.filtered n 2, s.filtered n 3]

/-- Time stamp of a terminal's accepted change (R73): the last raw transition at its pin. -/
def inputStamp (n : Fin 96) (s : State) (t : Nat) : Time48 := ((s.inputPad n t).map (·.1.since)).getD 0

/-- The mode's action on the levels its filters have accepted. -/
def acceptLevels (n : Fin 96) (new : BitVec 4) (stamp : Nat → Time48) (s : State) : State :=
  let g := s.sprig n
  let diff := g.tin ^^^ new
  let s1 := s.onSprig n fun x => { x with tin := new }
  if diff = 0 then s
  else match g.mode with
    | 3 =>
      let s2 := s1.quadChange n g.tin new (stamp (if diff.getLsbD 0 then 0 else 1))
      if diff.getLsbD 2 && new.getLsbD 2 then s2.indexEdge n else s2
    | 6 => s1.captureChange n g.tin new stamp
    | 7 | 0xA => s1.senseChange n (new.getLsbD 0) (stamp 0)
    | 8 => if new.getLsbD 0 then s1.tachEdge n (stamp 0) else s1
    | _ => s1.onSprig n fun x => { x with event := x.event ||| diff }

/-- The pins of a sprig move, and its filters accept the levels that have lasted (R73). -/
def inputEdge (n : Fin 96) (changes : List PinChange) (s : State) : State :=
  let s1 := s.senseInputs n changes
  if s.swapHold then s1 else s1.acceptLevels n (s1.filteredLevels n) (s1.inputStamp n)

end State

end Sys2Proof.Machine
end

