-- ==== Sys2Proof/Machine/ImageParse.lean ====
section
/-!
DEFINITION. Reading a topiary image (R46 to R63): header, section walk, records with their offsets. An image is the list of its
bytes; a byte past its end reads 0.
-/

namespace Sys2Proof.Machine

/-- The bytes of a slot as numbers, byte 0 first. -/
abbrev Bytes := List Nat

def u8 (b : Bytes) (o : Nat) : Nat := b.getD o 0
def u16 (b : Bytes) (o : Nat) : Nat := u8 b o + 256 * u8 b (o + 1)
def u32 (b : Bytes) (o : Nat) : Nat := u16 b o + 65536 * u16 b (o + 2)
def s32 (b : Bytes) (o : Nat) : Int := signed 32 (u32 b o)

/-- Bytes `o` to `o + n − 1` are all 0. -/
def zeroAt (b : Bytes) (o n : Nat) : Bool := (List.range n).all fun k => u8 b (o + k) = 0

/-- A failed check: reject code and OFFSET (R64). -/
abbrev Reject := Nat × Nat

/-- No failure, or one. -/
def need (ok : Bool) (code off : Nat) : List Reject := if ok then [] else [(code, off)]

/-- The failure reported: the lowest code, and of one code the lowest OFFSET (R64). -/
def worst : List Reject → Option Reject
  | [] => none
  | r :: rest =>
    match worst rest with
    | some x => if x.1 < r.1 || (x.1 = r.1 && x.2 < r.2) then some x else some r
    | none => some r

/-- TOTAL_LEN within its range (R46). DEDUCED: a multiple of 8, as its rule has it, is part of the range R64 names for code 0x0E
(log entry 131). -/
def totalInRange (total : Nat) : Bool := 0x60 ≤ total && total ≤ 0x10000 && total % 8 = 0

/-! ## Sections (R48, R49) -/

/-- Record size in bytes and the record counts allowed of a section type. -/
def sectionShape (type : Nat) : Option (Nat × Nat × Nat) :=
  match type with
  | 0x01 => some (8, 1, 1)
  | 0x02 => some (8, 1, 1)
  | 0x03 => some (4, 1, 1)
  | 0x10 => some (16, 0, 96)
  | 0x11 => some (4, 0, 384)
  | 0x20 => some (64, 0, 4)
  | 0x30 => some (32, 0, 96)
  | 0x31 => some (32, 0, 6)
  | 0x40 => some (8, 0, 64)
  | 0x50 => some (4, 0, 640)
  | 0x60 => some (4, 0, 256)
  | 0x70 => some (8, 0, 1)
  | 0xFF => some (0, 0, 0)
  | _ => none

/-- The section types every image holds. -/
def requiredTypes : List Nat := [0x01, 0x02, 0x03, 0x50, 0xFF]

/-- A section as the walk finds it. -/
structure Sect where
  off : Nat
  type : Nat
  flags : Nat
  len : Nat
  deriving DecidableEq, Repr

/-- The sections from offset `o` on. The walk stops at the first whose header or LENGTH passes TOTAL_LEN (R64). -/
def walk (b : Bytes) (total : Nat) : (fuel : Nat) → Nat → List Sect
  | 0, _ => []
  | k + 1, o =>
    if o + 8 ≤ total then
      let x : Sect := ⟨o, u16 b o, u16 b (o + 2), u32 b (o + 4)⟩
      if o + 8 + x.len ≤ total then x :: walk b total k (o + 8 + ceilDiv x.len 8 * 8) else [x]
    else []

/-- Offsets of the whole records of a section. -/
def Sect.records (x : Sect) : List Nat :=
  match sectionShape x.type with
  | some (size, _, _) => if size = 0 then [] else (List.range (x.len / size)).map fun k => x.off + 8 + k * size
  | none => []

/-- The bytes a section's records keep at 0 where no other code names them (R64), each run `(offset, length)`. -/
def reservedRuns (type : Nat) : List (Nat × Nat) :=
  match type with
  | 0x02 => [(1, 1), (4, 4)]
  | 0x30 => [(7, 1)]
  | 0x31 => [(1, 3)]
  | 0x40 => [(7, 1)]
  | 0x60 => [(3, 1)]
  | 0x70 => [(4, 4)]
  | _ => []

/-- The checks of one section (codes 0x07 to 0x0B), with the type before it; the first section follows none. -/
def Sect.check (b : Bytes) (total : Nat) (prev : Option Nat) (x : Sect) : List Reject :=
  let fits := x.off + 8 + x.len ≤ total
  let pad := x.off + 8 + x.len
  need (prev.all fun p => decide (p < x.type)) 0x08 x.off ++
  (match sectionShape x.type with
    | none => [(0x09, x.off)] ++ need fits 0x0B (x.off + 4)
    | some (size, lo, hi) =>
      let lenOk := fits && (if size = 0 then x.len = 0 else x.len % size = 0 && lo ≤ x.len / size && x.len / size ≤ hi)
      need (x.flags * 4 = size) 0x0A (x.off + 2) ++ need lenOk 0x0B (x.off + 4)) ++
  (if fits then
    need (zeroAt b pad (ceilDiv x.len 8 * 8 - x.len)) 0x07 pad ++
    x.records.flatMap (fun o => (reservedRuns x.type).flatMap fun r => need (zeroAt b (o + r.1) r.2) 0x07 (o + r.1)) ++
    (if x.type = 0x01 then x.records.flatMap fun o => need (u8 b (o + 7) / 2 = 0) 0x07 (o + 7) else []) ++
    (if x.type = 0x02 then x.records.flatMap fun o => need (u16 b (o + 2) / 128 = 0) 0x07 (o + 2) else [])
  else [])

/-- The checks of the sections in order. -/
def checkSections (b : Bytes) (total : Nat) : Option Nat → List Sect → List Reject
  | _, [] => []
  | prev, x :: rest => x.check b total prev ++ checkSections b total (some x.type) rest

/-- OFFSET of a missing section: the next section present in TYPE order, or the last one found (R64). -/
def missingAt (xs : List Sect) (type : Nat) : Nat :=
  match xs.find? fun x => type < x.type with
  | some x => x.off
  | none => (xs.getLast?.map (·.off)).getD 0x20

/-- The checks of header and sections (codes 0x01 to 0x0D), each stage only where the one before it has passed, since a lower
code is reported first. `variantBit` is the VARIANT_MASK bit of the running variant. -/
def checkLayout (b : Bytes) (variantBit : Nat) : List Reject :=
  let total := u32 b 8
  let head := need (u32 b 0 = 0x59525054) 0x01 0 ++ need (u16 b 4 = 0x0100) 0x02 4 ++
    need ((u8 b 6).testBit variantBit) 0x03 6 ++
    need (totalInRange total) 0x04 8
  if head != [] then head
  else
    let zeroed := (b.take 12 ++ [0, 0, 0, 0] ++ (b.take total).drop 16).map fun n => BitVec.ofNat 8 n
    let xs := walk b total 8192 0x20
    let whole : Bool := match xs.getLast? with
      | some x => decide (x.off + 8 + x.len ≤ total)
      | none => false
    need ((crc32 zeroed).toNat = u32 b 12) 0x05 12 ++ need (u32 b 16 != 0) 0x06 16 ++
      need (u8 b 6 / 8 = 0) 0x07 6 ++ need (u8 b 7 = 0) 0x07 7 ++ need (zeroAt b 0x16 10) 0x07 0x16 ++
      checkSections b total none xs ++
      (if whole then
        requiredTypes.flatMap (fun t => need (xs.any fun x => x.type = t) 0x0C (missingAt xs t)) ++
        need (xs.length = u16 b 0x14) 0x0D 0x14 ++
        (match xs.find? fun x => x.type = 0xFF with
          | some e => need (e.off + 8 = total) 0x0D e.off
          | none => [])
      else [])

/-! ## Records -/

/-- The records of a type, with their offsets. -/
def recordsOf (xs : List Sect) (type : Nat) : List Nat :=
  match xs.find? fun x => x.type = type with
  | some x => x.records
  | none => []

def parseSprig (b : Bytes) (o : Nat) : SprigRec :=
  { sprig := u8 b o, mode := u8 b (o + 1), loopOwned := (u8 b (o + 2)).testBit 0, wake := (u8 b (o + 2)).testBit 1
    adc := u8 b (o + 3), p0 := u32 b (o + 4), p1 := u32 b (o + 8), p2 := u32 b (o + 12) }

def parseRoute (b : Bytes) (o : Nat) : RouteRec :=
  let f := u8 b (o + 3)
  { sprig := u8 b o, term := u8 b (o + 1) % 4, out := (u8 b (o + 1)).testBit 7, pin := u8 b (o + 2)
    pullUp := f.testBit 0, pullDown := f.testBit 1, openDrain := f.testBit 2, invert := f.testBit 3 }

def parseProfile (b : Bytes) (o : Nat) : Profile :=
  { port := u8 b o, mode := u8 b (o + 1), lanes := u8 b (o + 2), clk := u8 b (o + 3), nozzles := u16 b (o + 4)
    shiftLen := u16 b (o + 6), fireMax := u16 b (o + 8), axis := u8 b (o + 10), sosSprig := u8 b (o + 11)
    linePitch := u16 b (o + 12), rows := u8 b (o + 14), redund := u8 b (o + 15)
    stagger := (List.range 8).map fun k => u16 b (o + 16 + 2 * k)
    latW := u16 b (o + 32), stbMin := u16 b (o + 34), stbMax := u16 b (o + 36), eTarget := u16 b (o + 38)
    rh := u16 b (o + 40), strobes := u8 b (o + 42), throttlePct := u8 b (o + 43), tWarn := u8 b (o + 44)
    tThrot := u8 b (o + 45), tShut := u8 b (o + 46), tHyst := u8 b (o + 47), stopTh := u16 b (o + 48)
    resumeTh := u16 b (o + 50), backup := u16 b (o + 52), sosWindow := u16 b (o + 54), revBand := u8 b (o + 56)
    testPct := u8 b (o + 57), vhsScale := u16 b (o + 58), lsFirst := u8 b (o + 60), lsBanks := u8 b (o + 61)
    highMark := u16 b (o + 62) }

/-- A loop-slot record; LIMITS are sensor limits for laws 4 and 5, signed for a node current (R57). -/
def parseSlot (b : Bytes) (o : Nat) : SlotRec :=
  let sensor := u8 b (o + 2) = 4 || u8 b (o + 2) = 5
  { core := u8 b o, slot := u8 b (o + 1), law := u8 b (o + 2), flags := u8 b (o + 3), rate := u16 b (o + 4)
    next := u8 b (o + 6), inKind := u8 b (o + 8), inIndex := u8 b (o + 9), outKind := u8 b (o + 10)
    outIndex := u8 b (o + 11), auxKind := u8 b (o + 12), auxIndex := u8 b (o + 13), deadline := u16 b (o + 14)
    preload := s32 b (o + 16)
    vmax := if sensor then 0 else u32 b (o + 20), amax := if sensor then 0 else u32 b (o + 24)
    jmax := if sensor then 0 else u32 b (o + 28)
    inMin := if sensor then u16 b (o + 20) else 0, inMax := if sensor then u16 b (o + 22) else 0 }

def parseLaw (b : Bytes) (o : Nat) : Nat × Coefs :=
  (u8 b o, { kp := s32 b (o + 4), ki := s32 b (o + 8), kd := s32 b (o + 12), kf := s32 b (o + 16), outMin := s32 b (o + 20)
             outMax := s32 b (o + 24), iLim := s32 b (o + 28) })

def parseNode (b : Bytes) (o : Nat) : NodeRec :=
  { port := u8 b o, position := u8 b (o + 1), motor := u8 b (o + 2), safe := u8 b (o + 3), solMask := u8 b (o + 4)
    inMask := u8 b (o + 5), enc := u8 b (o + 6) }

def parseSafe (b : Bytes) (o : Nat) : SafeRec := { output := u16 b o, safe := u8 b (o + 2), hold := u8 b (o + 3) }

def parseReact (b : Bytes) (o : Nat) : ReactRec := { source := u8 b o, react := u8 b (o + 1), vector := u8 b (o + 2) }

/-- The configuration of an image whose layout has passed. -/
def parseImage (b : Bytes) : Image :=
  let xs := walk b (u32 b 8) 8192 0x20
  let clock := (recordsOf xs 0x02).headD 0
  let banks := (recordsOf xs 0x03).headD 0
  { id := BitVec.ofNat 32 (u32 b 16), refsrc := u8 b clock, domains := u16 b (clock + 2)
    banks := (List.range 4).map fun k => u8 b (banks + k)
    sprigs := (recordsOf xs 0x10).map (parseSprig b), routes := (recordsOf xs 0x11).map (parseRoute b)
    profiles := (recordsOf xs 0x20).map (parseProfile b), slots := (recordsOf xs 0x30).map (parseSlot b)
    laws := (recordsOf xs 0x31).map (parseLaw b), nodes := (recordsOf xs 0x40).map (parseNode b)
    safes := (recordsOf xs 0x50).map (parseSafe b), reacts := (recordsOf xs 0x60).map (parseReact b)
    power := (recordsOf xs 0x70).head?.map fun o => (u16 b o, u16 b (o + 2)) }

end Sys2Proof.Machine
end

