-- ==== Sys2Proof/Machine/ImageCheck.lean ====
section
/-!
DEFINITION. Validation of a topiary image (R50 to R65, R81, R85, R89, R100, R206, R210): one list of failures per reject code
from 0x10 on, each with its OFFSET (R64). Which byte names a failure is log entry 20 where R64 leaves it to be read.
-/

namespace Sys2Proof.Machine

/-- What validation looks at: the bytes, the sections, the records, and the part it runs on. -/
structure Check where
  b : Bytes
  xs : List Sect
  img : Image
  variant : Variant
  ref : RefSel
  viof : Vector Nat 4

/-- The elements of a list, each with those before it. -/
def withEarlier {α : Type} (before : List α) : List α → List (List α × α)
  | [] => []
  | x :: rest => (before, x) :: withEarlier (before ++ [x]) rest

/-- Failures of a list of conditions of one code, each at an offset of a record. -/
def needs (code o : Nat) (cs : List (Nat × Bool)) : List Reject := cs.flatMap fun c => need c.2 code (o + c.1)

/-- A terminal's place in the mode's terminal table (R81): absent, an input or an output. -/
def terminalDir (mode p0 term : Nat) : Option Bool :=
  match mode with
  | 0x01 | 0x02 | 0x05 => if term < 2 then some true else none
  | 0x03 => if term < 3 then some false else none
  | 0x04 => if term < 3 then some true else none
  | 0x06 => some false
  | 0x07 | 0x08 | 0x0A => if term = 0 then some false else none
  | 0x09 => some (p0.testBit term)
  | _ => none

/-- The terminals a record of the mode must route (R81); mode 0x06 needs any one. -/
def requiredTerms (mode p1 : Nat) : List Nat :=
  match mode with
  | 0x01 | 0x02 | 0x04 => [0, 1]
  | 0x03 => if p1 = 0 then [0, 1] else [0, 1, 2]
  | 0x05 | 0x07 | 0x08 | 0x0A => [0]
  | _ => []

/-- The sprigs a record owns: a three-phase gang takes three (R53). -/
def SprigRec.gang (r : SprigRec) : List Nat := if r.mode = 2 then [r.sprig, r.sprig + 1, r.sprig + 2] else [r.sprig]

namespace Check

/-- Records with their offsets. -/
def sprigs (c : Check) : List (Nat × SprigRec) := (recordsOf c.xs 0x10).zip c.img.sprigs
def routes (c : Check) : List (Nat × RouteRec) := (recordsOf c.xs 0x11).zip c.img.routes
def heads (c : Check) : List (Nat × Profile) := (recordsOf c.xs 0x20).zip c.img.profiles
def slots (c : Check) : List (Nat × SlotRec) := (recordsOf c.xs 0x30).zip c.img.slots
def laws (c : Check) : List (Nat × Nat × Coefs) := (recordsOf c.xs 0x31).zip c.img.laws
def nodes (c : Check) : List (Nat × NodeRec) := (recordsOf c.xs 0x40).zip c.img.nodes
def safes (c : Check) : List (Nat × SafeRec) := (recordsOf c.xs 0x50).zip c.img.safes
def reacts (c : Check) : List (Nat × ReactRec) := (recordsOf c.xs 0x60).zip c.img.reacts
/-- Offset of the one record of a section. -/
def one (c : Check) (type : Nat) : Nat := (recordsOf c.xs type).headD 0

/-- The record that owns a sprig, as leader or in a gang. -/
def owner (c : Check) (n : Nat) : Option SprigRec := c.img.sprigs.find? fun r => r.gang.contains n
/-- The record of a sprig itself. -/
def leader (c : Check) (n : Nat) : Option SprigRec := c.img.sprigs.find? fun r => r.sprig = n
def node (c : Check) (k : Nat) : Option NodeRec := c.img.nodes.find? fun n => 8 * n.port + n.position = k

/-- An index that names a unit absent on the variant (R34, R49). -/
def absent (c : Check) (kind index : Nat) : Bool :=
  match kind with
  | 2 | 7 => c.variant.sprigs ≤ index && index < 96
  | 3 => c.variant.adcs ≤ index && index < 16
  | 4 | 5 | 6 => c.variant.tlks ≤ index / 8 && index < 64
  | _ => false

/-- 0x10 (R50). -/
def c10 (c : Check) : List Reject :=
  let o := c.one 1
  let v := c.variant
  needs 0x10 o (([v.ports, v.cores, v.tlks, v.sprigs, v.banks, v.adcs, 2].zipIdx.map fun x => (x.2, decide (u8 c.b (o + x.2) ≤ x.1))) ++
    [(7, !(u8 c.b (o + 7)).testBit 0 || v.pcie)])

/-- 0x11. -/
def c11 (c : Check) : List Reject :=
  let v := c.variant
  (c.sprigs.flatMap fun x => needs 0x11 x.1
    [(0, x.2.gang.all (· < v.sprigs)), (3, !(x.2.mode = 5 && c.absent 3 x.2.adc)),
     (4, !((x.2.mode = 7 || x.2.mode = 0xA) && v.ports ≤ x.2.p0 && x.2.p0 < 4))]) ++
  (c.routes.flatMap fun x => need (!c.absent 2 x.2.sprig) 0x11 x.1) ++
  (c.heads.flatMap fun x => needs 0x11 x.1 [(0, decide (x.2.port < v.ports)), (11, !c.absent 2 x.2.sosSprig)]) ++
  (c.slots.flatMap fun x =>
    let r := x.2
    needs 0x11 x.1 [(0, decide (r.core < v.cores)), (9, !c.absent r.inKind r.inIndex),
      (11, !(match r.outKind with
        | 1 => c.absent 2 r.outIndex
        | 2 => c.absent 4 r.outIndex
        | 3 => c.absent 4 (r.outIndex / 4)
        | _ => false)),
      (13, !c.absent r.auxKind r.auxIndex)]) ++
  (c.nodes.flatMap fun x => need (x.2.port < v.tlks) 0x11 x.1) ++
  (c.safes.flatMap fun x =>
    let k := x.2.output
    need (!(c.absent 2 (k / 4)) && !(0x400 ≤ k && c.absent 4 ((k - 0x400) / 4))) 0x11 x.1)

/-- 0x12 (R51). -/
def c12 (c : Check) : List Reject :=
  need (c.img.refsrc = 2 || (c.img.refsrc = 0 && c.ref = .xi25) || (c.img.refsrc = 1 && c.ref = .pcie)) 0x12 (c.one 2)

/-- The domains the structure requires, as DOMAIN_EN bits (R51). -/
def domains (i : Image) : List Nat :=
  (if i.sprigs != [] then [1, 2] else []) ++ (if i.slots != [] then [0] else []) ++
  (if i.sprigs.any (fun r => r.mode = 5) || i.slots.any (fun r => r.inKind = 3 || r.auxKind = 3) then [6] else []) ++
  (if i.profiles != [] then [4, 3] else []) ++ (if i.nodes != [] then [5] else [])

/-- 0x13. -/
def c13 (c : Check) : List Reject := need ((domains c.img).all fun k => c.img.domains.testBit k) 0x13 (c.one 2 + 2)

/-- A bank's supply is within ±10 % of its code (R52), in mV. -/
def bankOk (code mv : Nat) : Bool :=
  match code with
  | 0 => true
  | 1 => 1620 ≤ mv && mv ≤ 1980
  | 2 => 2250 ≤ mv && mv ≤ 2750
  | 3 => 2970 ≤ mv && mv ≤ 3630
  | _ => false

/-- 0x14. -/
def c14 (c : Check) : List Reject :=
  (c.img.banks.zip c.viof.toList).zipIdx.flatMap fun x => need (bankOk x.1.1 x.1.2) 0x14 (c.one 3 + x.2)

/-- 0x20 (R53). -/
def c20 (c : Check) : List Reject :=
  (withEarlier [] c.sprigs).flatMap fun x =>
    need (!(x.2.2.gang.any fun n => x.1.any fun y => y.2.gang.contains n)) 0x20 x.2.1

/-- The ranges of P0 to P2 (R53, R89). -/
def paramsOk (v : Variant) (r : SprigRec) : List Bool :=
  match r.mode with
  | 0x01 | 0x02 => [20 ≤ r.p0 && r.p0 ≤ 65535, 8 ≤ r.p1 && r.p1 ≤ 1023, r.p2 < 4 * r.p0]
  | 0x03 => [r.p0 ≤ 7 || r.p0 = 0xFF, r.p1 ≤ 2, r.p2 = 0]
  | 0x04 => [1 ≤ r.p0 && r.p0 ≤ 5000000 && r.p0 * 2 * r.p1 ≤ 1000000000, 20 ≤ r.p1 && r.p1 ≤ 65535, r.p2 ≤ 65535]
  | 0x05 => [r.p0 ≤ 65535, r.p1 < r.p0, 1 ≤ r.p2 && r.p2 ≤ 65535]
  | 0x06 => [r.p0 ≤ 0xFF, r.p1 = 0, r.p2 = 0]
  | 0x07 | 0x0A => [r.p0 < v.ports, r.p1 = 1 || r.p1 = 2, r.p2 ≤ 65535]
  | 0x08 => [1 ≤ r.p0 && r.p0 ≤ 1000000, r.p1 = 0, r.p2 = 0]
  | 0x09 => [r.p0 ≤ 0xF, r.p1 = 0, r.p2 = 0]
  | _ => [r.p0 = 0, r.p1 = 0, r.p2 = 0]

/-- 0x21. -/
def c21 (c : Check) : List Reject :=
  (withEarlier [] c.sprigs).flatMap fun x =>
    let o := x.2.1
    let r := x.2.2
    let ps := paramsOk c.variant r
    needs 0x21 o
      [(1, r.mode ≤ 0xA), (2, u8 c.b (o + 2) < 4 && (!r.wake || [6, 8, 9].contains r.mode)),
       (3, if r.mode = 5 then r.adc < c.variant.adcs else r.adc = 0xFF),
       (0, !(r.mode = 5 && x.1.any fun y => y.2.mode = 5 && y.2.adc = r.adc)),
       (4, ps.getD 0 true), (8, ps.getD 1 true), (12, ps.getD 2 true),
       (0, !(r.mode = 3 && r.p0 != 0xFF && x.1.any fun y => y.2.mode = 3 && y.2.p0 = r.p0))]

/-- 0x22 (R54, R81). -/
def c22 (c : Check) : List Reject :=
  (withEarlier [] c.routes).flatMap fun x =>
    let o := x.2.1
    let r := x.2.2
    match c.owner r.sprig with
    | none => [(0x22, o)]
    | some g =>
      if g.mode = 0 then [(0x22, o)]
      else
        needs 0x22 o
          [(1, bitsOf (u8 c.b (o + 1)) 2 5 = 0 && terminalDir g.mode g.p0 r.term = some r.out),
           (0, !(x.1.any fun y => y.2.sprig = r.sprig && y.2.term = r.term))]

/-- 0x23 (R54). -/
def c23 (c : Check) : List Reject :=
  (withEarlier [] c.routes).flatMap fun x =>
    need (!(x.2.2.out && x.1.any fun y => y.2.out && y.2.pin = x.2.2.pin)) 0x23 x.2.1

/-- 0x24 (R54). -/
def c24 (c : Check) : List Reject :=
  c.routes.flatMap fun x => needs 0x24 x.1
    [(2, x.2.pin < 120 && c.img.banks.getD (x.2.pin / 30) 0 != 0),
     (3, u8 c.b (x.1 + 3) < 16 && !(x.2.pullUp && x.2.pullDown) && (x.2.out || !x.2.openDrain))]

/-- 0x25 (R81). -/
def c25 (c : Check) : List Reject :=
  let routed (s t : Nat) : Bool := c.img.routes.any fun y => y.sprig = s && y.term = t
  c.sprigs.flatMap fun x =>
    need (x.2.gang.all (fun s => (requiredTerms x.2.mode x.2.p1).all (routed s)) &&
      (x.2.mode != 6 || [0, 1, 2, 3].any (routed x.2.sprig))) 0x25 x.1

/-- 0x30 (R55). -/
def c30 (c : Check) : List Reject :=
  (withEarlier [] c.heads).flatMap fun x =>
    let o := x.2.1
    let r := x.2.2
    needs 0x30 o
      ([(0, !(x.1.any fun y => y.2.port = r.port)), (1, r.mode < 16 && (r.scan || !r.bidir)),
        (2, 1 ≤ r.lanes && r.lanes ≤ 8), (3, r.clk < 32 && (!r.cmos || 3 ≤ r.clk % 16)),
        (4, 1 ≤ r.nozzles && r.nozzles ≤ 10240), (8, 1 ≤ r.fireMax && r.fireMax ≤ 48000), (12, 1 ≤ r.linePitch),
        (14, 1 ≤ r.rows && r.rows ≤ 8), (15, 1 ≤ r.redund && r.redund ≤ (if r.scan then 8 else 4)),
        (32, 5 ≤ r.latW && r.latW ≤ 10000), (34, 20 ≤ r.stbMin), (36, r.stbMin ≤ r.stbMax && r.stbMax ≤ 20000),
        (38, 1 ≤ r.eTarget), (40, 1 ≤ r.rh), (42, 1 ≤ r.strobes && r.strobes ≤ 4),
        (43, r.throttlePct = 0 || (10 ≤ r.throttlePct && r.throttlePct ≤ 100)), (47, 1 ≤ r.tHyst && r.tHyst ≤ 20),
        (54, 1 ≤ r.sosWindow), (56, r.revBand ≤ 15 || r.revBand = 0xFF), (57, 1 ≤ r.testPct && r.testPct ≤ 50),
        (58, 1000 ≤ r.vhsScale)] ++
       (List.range 8).map fun k => (16 + 2 * k, k < r.rows || r.stag k = 0))

/-- 0x31 (R56): times in ns, the port clock 200 MHz / (CLKDIV + 1), two bits a clock with LVDS lanes. -/
def c31 (c : Check) : List Reject :=
  c.heads.flatMap fun x =>
    let r := x.2
    let shift := r.shiftLen * 5 * (r.clk % 16 + 1)
    needs 0x31 x.1
      [(6, r.nozzles * r.bits ≤ r.shiftLen * r.lanes),
       (6, if r.cmos then (shift + r.latW) * r.fireMax ≤ 1000000000 else (shift + 2 * r.latW) * r.fireMax ≤ 2000000000),
       (36, (r.strobes * r.stbMax + r.latW) * r.fireMax ≤ 1000000000)]

/-- 0x32 (R55, R100). -/
def c32 (c : Check) : List Reject :=
  (withEarlier [] c.heads).flatMap fun x =>
    let r := x.2.2
    needs 0x32 x.2.1
      [(10, r.axis ≤ 7 && c.img.sprigs.any fun g => g.mode = 3 && g.p0 = r.axis && g.p1 ≤ 1),
       (11, c.img.sprigs.any fun g => g.sprig = r.sosSprig && g.mode = 7 && g.p0 = r.port),
       (0, !(x.1.any fun y => y.2.axis = r.axis && (y.2.scan || r.scan)))]

/-- 0x33 (R55). -/
def c33 (c : Check) : List Reject :=
  c.heads.flatMap fun x => needs 0x33 x.1
    [(45, x.2.tWarn < x.2.tThrot), (46, x.2.tThrot < x.2.tShut), (50, x.2.stopTh < x.2.resumeTh)]

/-- BANK_ON in force with the image: every present bank without a power map (R49). -/
def bankOn (c : Check) : Nat := (c.img.power.map (·.1)).getD (2 ^ c.variant.banks - 1)

def regionOf (r : Profile) : List Nat := (List.range r.lsBanks).map (r.lsFirst + ·)

/-- 0x34 (R55). -/
def c34 (c : Check) : List Reject :=
  (withEarlier [] c.heads).flatMap fun x =>
    let r := x.2.2
    needs 0x34 x.2.1
      [(60, r.lsFirst < c.variant.banks), (61, 1 ≤ r.lsBanks && r.lsFirst + r.lsBanks ≤ c.variant.banks),
       (60, (regionOf r).all fun k => c.bankOn.testBit k),
       (0, !((regionOf r).any fun k => x.1.any fun y => (regionOf y.2).contains k))]

/-- 0x35 (R65). -/
def c35 (c : Check) : List Reject :=
  c.heads.flatMap fun x =>
    let r := x.2
    match c.slots.find? fun y => y.2.seam && y.2.inKind = 1 && y.2.inIndex = r.axis with
    | none => [(0x35, x.1 + 10)]
    | some (o, q) =>
      if q.vmax = 0 || q.amax = 0 || q.jmax = 0 then [(0x35, max x.1 o)]
      else
        need (r.rated64 ≤ 64 * q.vmax) 0x35 (max x.1 o) ++
        needs 0x35 x.1
          [(48, nDec r q + 2 ≤ r.stopTh), (52, stopCeil 2 1 r.rated64 q.amax q.j + 4 ≤ r.backup),
           (62, r.resumeTh < r.highMark && r.highMark + ceilDiv 512 r.lineBytes + windowLines r q ≤ r.ring)]

/-- 0x38 (R57). -/
def c38 (c : Check) : List Reject :=
  (withEarlier [] c.slots).flatMap fun x =>
    let r := x.2.2
    needs 0x38 x.2.1
      [(1, r.slot ≤ 23), (0, !(x.1.any fun y => y.2.core = r.core && y.2.slot = r.slot)),
       (14, r.deadline = 0 || (r.kind.cost ≤ r.deadline && r.deadline * r.rate ≤ 400000000))]

/-- An input binding names what its kind allows (R57); node inputs are judged under 0x41. -/
def inputOk (c : Check) (kind index : Nat) : Bool :=
  match kind with
  | 0 => true
  | 1 => index ≤ 7
  | 2 => (c.leader index).any fun g => g.mode = 3
  | 3 => index < c.variant.adcs
  | 7 => (c.leader index).any fun g => g.mode = 8
  | _ => kind ≤ 6 && index ≤ 63

/-- The laws R206 allows some node bridge; a bridge the image does not declare as used fails code 0x41 instead (R60). -/
def bridgeLaw (k : LawKind) : Bool := k = .pidf || k = .piCurrent || k = .cascade || k = .piDq

/-- The output stands in the table of R206. -/
def outputOk (c : Check) (r : SlotRec) : Bool :=
  let k := r.kind
  match r.outKind with
  | 1 => (c.leader r.outIndex).any fun g => g.loopOwned &&
      (match g.mode with
        | 1 => k = .pidf || k = .piCurrent || k = .cascade || k = .heater || k = .pressure
        | 2 => k = .piDq
        | 4 => k = .pidf || k = .cascade
        | 5 => k = .peakHold && r.inKind = 3 && r.inIndex = g.adc
        | _ => false)
  | 2 => match c.node r.outIndex with
    | some n => if n.motor = 0 then bridgeLaw k else if n.motor = 2 then k = .piDq else bridgeLaw k && k != .piDq
    | none => bridgeLaw k
  | 3 => k = .heater || k = .pressure || (k = .peakHold && r.inKind = 5 && r.inIndex = r.outIndex / 4)
  | _ => true

/-- A slot's DQ inputs (R206). -/
def dqOk (r : SlotRec) : Bool :=
  r.kind != .piDq || (r.inKind = 3 && r.auxKind = 3 && r.inIndex != r.auxIndex) ||
    (r.inKind = 5 && r.auxKind = 5 && r.inIndex = r.auxIndex)

/-- A cascade slot that no other names as its NEXT. -/
def isHead (c : Check) (r : SlotRec) : Bool :=
  !(c.img.slots.any fun y => y.law = 3 && y.core = r.core && y.next != 0xFF && y.next = r.slot)

/-- The slot owns a profile generator, or its LIMITS ask for one (R210). -/
def wantsGen (c : Check) (r : SlotRec) : Bool :=
  r.seam || ((r.law = 1 || (r.law = 3 && c.isHead r)) && (r.vmax != 0 || r.amax != 0 || r.jmax != 0))

/-- LIMITS by the law (R57, R210). -/
def limitsOk (c : Check) (r : SlotRec) : Bool :=
  if c.wantsGen r then r.vmax != 0 && r.amax != 0 && r.jmax != 0 else r.vmax = 0 && r.amax = 0 && r.jmax = 0

/-- 0x39 (R57, R85, R206, R210). -/
def c39 (c : Check) : List Reject :=
  ((withEarlier [] c.slots).flatMap fun x =>
    let o := x.2.1
    let r := x.2.2
    needs 0x39 o
      [(2, r.kind != .unknown),
       (3, r.flags < 8 && (!r.dq || r.law = 2) && (!r.seam || (r.law = 1 && r.inKind = 1))),
       (8, r.inKind ≤ 7 && (!(r.law = 4 || r.law = 5) || r.inKind = 3 || r.inKind = 5)),
       (9, r.inKind > 7 || c.inputOk r.inKind r.inIndex),
       (10, r.outKind ≤ 3 && decide (r.outKind = 0) == decide (r.law = 3 ∧ r.next ≠ 0xFF)),
       (11, c.outputOk r), (12, r.auxKind ≤ 7 && dqOk r), (13, r.auxKind > 7 || c.inputOk r.auxKind r.auxIndex),
       (0, !(r.seam && x.1.any fun y => y.2.seam && y.2.inIndex = r.inIndex)),
       (0, !(r.outKind != 0 && x.1.any fun y => y.2.outKind = r.outKind && y.2.outIndex = r.outIndex)),
       (0, !(r.outKind = 1 && r.law = 2 && 12 ≤ (x.1.filter fun y => y.2.outKind = 1 && y.2.law = 2).length)),
       (0, !(c.wantsGen r && 8 ≤ (x.1.filter fun y => y.2.core = r.core && c.wantsGen y.2).length)),
       (20, (r.law = 4 || r.law = 5) || c.limitsOk r),
       (24, !(r.law = 4 || r.law = 5) || zeroAt c.b (o + 24) 8)]) ++
  (c.sprigs.flatMap fun x =>
    need (!x.2.loopOwned || c.img.slots.any fun y => y.outKind = 1 && y.outIndex = x.2.sprig) 0x39 (x.1 + 2))

/-- 0x3A (R57). -/
def c3A (c : Check) : List Reject :=
  c.slots.flatMap fun x =>
    let r := x.2
    let nodeKind (k : Nat) : Bool := 4 ≤ k && k ≤ 6
    let top := if r.law = 4 || r.law = 5 then 1000
      else if r.outKind = 2 || r.outKind = 3 || nodeKind r.inKind || nodeKind r.auxKind then 20000 else 40000
    need (1 ≤ r.rate && r.rate ≤ top) 0x3A (x.1 + 4)

/-- 0x3B (R58). -/
def c3B (c : Check) : List Reject :=
  (List.range 4).flatMap fun k =>
    let mine := c.slots.filter fun x => x.2.core = k
    need ((mine.map fun x => x.2.kind.cost * x.2.rate).foldl (· + ·) 0 ≤ 320000000) 0x3B ((mine.getLast?.map (·.1)).getD 0)

/-- The slots of a chain from `r` on, at most `fuel` more. -/
def chain (c : Check) : (fuel : Nat) → Nat × SlotRec → List (Nat × SlotRec)
  | 0, x => [x]
  | k + 1, x =>
    if x.2.next = 0xFF then [x]
    else match c.slots.find? fun y => y.2.core = x.2.core && y.2.slot = x.2.next with
      | some y => x :: c.chain k y
      | none => [x]

/-- Each inner RATE is a multiple of the outer one. -/
def ratesOk : List (Nat × SlotRec) → List Reject
  | x :: y :: rest => need (x.2.rate != 0 && y.2.rate % x.2.rate = 0) 0x3C (max x.1 y.1) ++ ratesOk (y :: rest)
  | _ => []

/-- 0x3C: the cascade chain rule of R57. DEDUCED: it has a row of its own in the reject table, which rules the order (R64), so its
breach is not the 0x39 that R57 gives its binding rules together (log entry 132). -/
def c3C (c : Check) : List Reject :=
  let heads := c.slots.filter fun x => x.2.law = 3 && c.isHead x.2
  let chains := heads.map (c.chain 3)
  ((withEarlier [] c.slots).flatMap fun x =>
    let r := x.2.2
    need (r.next = 0xFF || (r.law = 3 && (c.img.slots.any fun y => y.core = r.core && y.slot = r.next && y.law = 3) &&
      !(x.1.any fun y => y.2.core = r.core && y.2.next = r.next))) 0x3C (x.2.1 + 6)) ++
  (chains.flatMap fun l => need (2 ≤ l.length && l.length ≤ 3) 0x3C ((l.head?.map (·.1)).getD 0 + 6) ++ ratesOk l) ++
  (c.slots.flatMap fun x => need (x.2.law != 3 || chains.any fun l => l.any fun y => y.1 = x.1) 0x3C (x.1 + 6))

/-- An unsigned ADC limit, or a node current's in two's complement (R57). -/
def sensorLimit (kind n : Nat) : Int := if kind = 5 then signed 16 n else n

/-- 0x3D (R57). -/
def c3D (c : Check) : List Reject :=
  c.slots.flatMap fun x =>
    need (!(x.2.law = 4 || x.2.law = 5) || sensorLimit x.2.inKind x.2.inMin < sensorLimit x.2.inKind x.2.inMax) 0x3D (x.1 + 22)

/-- 0x3E (R59). -/
def c3E (c : Check) : List Reject :=
  (withEarlier [] c.laws).flatMap fun x =>
    let l := x.2.2.1
    let k := x.2.2.2
    needs 0x3E x.2.1 [(0, 1 ≤ l && l ≤ 6 && !(x.1.any fun y => y.2.1 = l)), (24, k.outMin < k.outMax), (28, 0 ≤ k.iLim)]

/-- 0x40 (R60). -/
def c40 (c : Check) : List Reject :=
  ((withEarlier [] c.nodes).flatMap fun x =>
    let n := x.2.2
    needs 0x40 x.2.1
      [(1, n.position ≤ 7 && !(x.1.any fun y => y.2.port = n.port && y.2.position = n.position)), (2, n.motor ≤ 3),
       (3, n.safe ≤ 1), (4, n.solMask < 16), (5, n.inMask < 4), (6, n.enc ≤ 1)]) ++
  ((List.range 8).flatMap fun p =>
    let mine := c.nodes.filter fun x => x.2.port = p
    need ((List.range mine.length).all fun k => mine.any fun x => x.2.position = k) 0x40 ((mine.getLast?.map (·.1)).getD 0))

/-- A node input is one the node's record marks as used (R60): as main input a current is CUR_A, as auxiliary CUR_B (R229). -/
def nodeInputOk (c : Check) (aux : Bool) (kind index : Nat) : Bool :=
  match kind with
  | 4 => (c.node index).any fun n => n.enc = 1
  | 5 => (c.node index).any fun n => if aux then n.motor = 2 else n.motor != 0 || n.solMask != 0
  | 6 => (c.node index).any fun n => n.motor != 0 || n.solMask != 0
  | _ => true

/-- 0x41 (R60). -/
def c41 (c : Check) : List Reject :=
  c.slots.flatMap fun x =>
    let r := x.2
    needs 0x41 x.1
      [(9, c.nodeInputOk false r.inKind r.inIndex),
       (11, match r.outKind with
        | 2 => (c.node r.outIndex).any fun n => n.motor != 0
        | 3 => (c.node (r.outIndex / 4)).any fun n => n.solMask.testBit (r.outIndex % 4)
        | _ => true),
       (13, c.nodeInputOk true r.auxKind r.auxIndex)]

/-- Every output that has a safe-state record (R61), with the OFFSET that names its absence. -/
def outputs (c : Check) : List (Nat × Nat) :=
  (c.routes.filter fun x => x.2.out).map (fun x => (4 * x.2.sprig + x.2.term, x.1)) ++
  c.nodes.flatMap fun x => (List.range 4).filterMap fun k =>
    if x.2.solMask.testBit k then some (0x400 + 32 * x.2.port + 4 * x.2.position + k, x.1 + 4) else none

/-- 0x50 (R61). -/
def c50 (c : Check) : List Reject := c.outputs.flatMap fun x => need (c.img.safes.any fun r => r.output = x.1) 0x50 x.2

/-- 0x51 (R61). -/
def c51 (c : Check) : List Reject :=
  (withEarlier [] c.safes).flatMap fun x =>
    let r := x.2.2
    let top := if 0x400 ≤ r.output then 1 else 2
    needs 0x51 x.2.1
      [(0, c.outputs.any (fun y => y.1 = r.output) && !(x.1.any fun y => y.2.output = r.output)),
       (2, r.safe ≤ top), (3, r.hold = 3 || r.hold ≤ top)]

/-- The level codes that are an output's off level (R61): of a solenoid 0; of a mode 0x01 terminal its zero-duty level (R82) as a
pin level, either code of a release on an open-drain output. -/
def offCodes (c : Check) (r : SlotRec) : List (Nat × List Nat) :=
  match r.outKind with
  | 3 => [(0x400 + r.outIndex, [0])]
  | 1 => (c.img.routes.filter fun y => y.sprig = r.outIndex && y.out).map fun y =>
      let high := (y.term = 1) != y.invert
      (4 * y.sprig + y.term, if high then (if y.openDrain then [1, 2] else [1]) else [0])
  | _ => []

/-- 0x52 (R61). -/
def c52 (c : Check) : List Reject :=
  (c.img.slots.filter fun r => r.law = 4 || r.law = 5).flatMap fun r => (c.offCodes r).flatMap fun w =>
    match c.safes.find? fun x => x.2.output = w.1 with
    | some x => need (w.2.contains x.2.safe && (x.2.hold = 3 || w.2.contains x.2.hold)) 0x52 x.1
    | none => []

/-- 0x60 (R62). -/
def c60 (c : Check) : List Reject :=
  (withEarlier [] c.reacts).flatMap fun x =>
    let r := x.2.2
    match sourceInfo r.source with
    | none => [(0x60, x.2.1)]
    | some i => needs 0x60 x.2.1
        [(0, !(x.1.any fun y => y.2.source = r.source)), (1, r.react < 32 && (!r.react.testBit 2 || i.blockReset)),
         (2, if r.react.testBit 0 then 1 ≤ r.vector && r.vector ≤ 31 else r.vector = 0)]

/-- 0x61 (R62). -/
def c61 (c : Check) : List Reject :=
  c.reacts.flatMap fun x => need (!((sourceInfo x.2.source).any fun i => i.cls = 3) || x.2.react.testBit 4) 0x61 (x.1 + 1)

/-- 0x70 (R63). -/
def c70 (c : Check) : List Reject :=
  match c.img.power with
  | none => []
  | some (on, ret) =>
    needs 0x70 (c.one 0x70)
      [(0, on < 2 ^ c.variant.banks && c.img.profiles.all fun r => (regionOf r).all fun k => on.testBit k),
       (2, (List.range 16).all fun k => !ret.testBit k || on.testBit k)]

/-- The record checks in the order of the reject table. -/
def stages : List (Check → List Reject) :=
  [c10, c11, c12, c13, c14, c20, c21, c22, c23, c24, c25, c30, c31, c32, c33, c34, c35, c38, c39, c3A, c3B, c3C, c3D, c3E,
   c40, c41, c50, c51, c52, c60, c61, c70]

/-- The first failure of the record checks (R64). -/
def first (c : Check) : List (Check → List Reject) → Option Reject
  | [] => none
  | f :: rest =>
    match worst (f c) with
    | some r => some r
    | none => c.first rest

end Check

/-- VARIANT_MASK bit of a variant (R46). -/
def Variant.maskBit : Variant → Nat
  | .p112 => 0
  | .p224 => 1
  | .p448 => 2

/-- Code 0x0E (R64): an uncorrectable byte among those judged: bytes 0 to TOTAL_LEN − 1 where TOTAL_LEN is readable and in range
(`totalInRange`, log entry 131), else bytes 0x00 to 0x0B. `bad` lists the uncorrectable bytes of the slot. -/
def eccReject (b : Bytes) (bad : List Nat) : Option Reject :=
  let total := u32 b 8
  let readable := [8, 9, 10, 11].all fun k => !bad.contains k
  let bound := if readable && totalInRange total then total else 12
  (bad.filter (· < bound)).foldl (fun best o => match best with
    | some (r : Reject) => some (if o < r.2 then (0x0E, o) else r)
    | none => some (0x0E, o)) none

/-- The verdict on the bytes of the staged slot. -/
def imageVerdict (b : Bytes) (bad : List Nat) (variant : Variant) (ref : RefSel) (viof : Vector Nat 4) : Option Reject :=
  match eccReject b bad with
  | some r => some r
  | none =>
    match worst (checkLayout b variant.maskBit) with
    | some r => some r
    | none =>
      ({ b, xs := walk b (u32 b 8) 8192 0x20, img := parseImage b, variant, ref, viof } : Check).first Check.stages

end Sys2Proof.Machine
end

