-- ==== Sys2Proof/Machine/Loops.lean ====
section
/-!
DEFINITION. The commands of the loop cores (R185 to R222): ticks and jobs, slot control, coefficients, generators, test signals,
capture, migration. Their registers belong to the control plane; a core beyond LOOP_CORES is an absent unit (R33), and writes to a
free slot are ignored (R222).
-/

namespace Sys2Proof.Machine

/-! ## Samples -/

/-- SAMPLE_TICK (R186, R187): at tick(k) of a running slot. -/
def State.sampleTick (c : Fin 4) (i : Fin 24) (s : State) : State :=
  let r := (s.slot c i).cfg
  let j := s.latch c i
  (s.onSlot c i fun x => x.ticked j (s.countInput r.inKind r.inIndex).toInt (s.countInput r.auxKind r.auxIndex).toInt).onCore c
    (Core.start s.loopNow)

/-- The next tick of a running slot has come. -/
def State.tickDue (c : Fin 4) (i : Fin 24) (s : State) : Bool :=
  s.clocked && (s.slot c i).state = .running && reached ((s.slot c i).tickAt (s.slot c i).kNext) s.loopNow

def execSampleTick (core : Fin 4) (slot : Fin 24) (s : State) : Res :=
  .next (if s.tickDue core slot then s.sampleTick core slot else s)

/-- The outputs still to come with one more, in sample order, before another of the same sample. -/
def insertOut (o : Out) (l : List Out) : List Out :=
  l.takeWhile (fun y => decide (y.k < o.k)) ++ o :: l.dropWhile (fun y => decide (y.k < o.k))

/-- The slot and its outputs after a job whose sample lies at or beyond the handover: the output is the source's, and the state stays
what the transfer takes (R221, R222). -/
def Slot.earlyDone (j : Job) (o : SampleOut) (x : Slot) : Slot :=
  let stale : Out := { k := j.k, tOut := j.tOut, epoch := x.epoch, value := o.value, u := o.u, complete := true, stale := true }
  { x with jobs := x.jobs.map fun y => if y.k = j.k then { y with ran := true } else y, outs := insertOut stale x.outs }

/-- The slot after a job: its state, and its output complete where it still waits for its tick. -/
def Slot.jobDone (j : Job) (o : SampleOut) (_x : Slot) : Slot :=
  let fill (y : Out) : Out := if y.k = j.k && !y.complete then { y with complete := true, value := o.value, u := o.u } else y
  { o.slot with jobs := o.slot.jobs.filter fun y => y.k != j.k, outs := o.slot.outs.map fill }

/-- The running job of a core completes (R193, R197, R219). -/
def State.completeJob (c : Fin 4) (i : Fin 24) (j : Job) (s : State) : State :=
  let x := s.slot c i
  let inner := (s.outerOf c i).isSome
  let o := x.compute inner j
  if x.mig.pend && x.mig.toH ≤ j.k then s.onSlot c i (Slot.earlyDone j o)
  else
    let s1 := s.onSlot c i (Slot.jobDone j o)
    let s2 := s1.capture c i.val j.k (s1.slot c i) j.aux false j.testFirst
    s2.raiseIf (x.sat = 0 && o.slot.sat != 0) .control 0x41 5 (State.slotIndex c i)

/-- SAMPLE_JOB_DONE (R193): the running job ends and the core starts the next. -/
def execSampleJobDone (core : Fin 4) (s : State) : Res :=
  .next (match (s.core core).running.bind (fin? 24) with
    | some i =>
      let s1 := match (s.slot core i).jobs.find? fun j => !j.ran with
        | some j => s.completeJob core i j
        | none => s
      if s.clocked then s1.onCore core fun k => { k with running := k.choose s.loopNow } else s
    | none => if s.clocked then s.onCore core (Core.start s.loopNow) else s)

/-! ## Outputs (R188, R206) -/

/-- The last delivery a PARK waited for parks the output (R189). -/
def State.finishPark (c : Fin 4) (i : Fin 24) (s : State) : State :=
  if (s.slot c i).parking && (s.slot c i).outs = [] then s.parkSlot c i else s

/-- A deadline miss: the previous output stays. -/
def State.missOutput (c : Fin 4) (i : Fin 24) (s : State) : State :=
  (s.onSlot c i fun x => { x with miss := true, misscnt := satAdd 0xFFFF x.misscnt 1 }).raise .control 0x40 5 (State.slotIndex c i)

/-- The first waiting output at its output tick. -/
def State.outputFirst (c : Fin 4) (i : Fin 24) (s : State) : State :=
  match (s.slot c i).outs with
  | [] => s
  | o :: rest =>
    if reached o.tOut s.loopNow then
      let s1 := s.onSlot c i fun x => { x with outs := rest }
      if o.stale then
        (s1.onSlot c i fun x => { x with mig := { x.mig with discards := satAdd 0xFFFF x.mig.discards 1 } }).raise .control 0x43 5
          (State.slotIndex c i)
      else
        let s2 := if o.complete then
            (s1.onSlot c i fun x => { x with outLast := o.u, delivered := true }).deliver (s.slot c i).cfg o.value
          else s1.missOutput c i
        s2.captureOut c i o
    else s

/-- OUTPUT_TICK (R188, R221): a discarded output is taken off before the one delivered in its place. -/
def execOutputTick (core : Fin 4) (slot : Fin 24) (s : State) : Res :=
  .next (if s.clocked then
    let stale := match (s.slot core slot).outs with
      | o :: _ => o.stale
      | [] => false
    let s1 := s.outputFirst core slot
    (if stale then s1.outputFirst core slot else s1).finishPark core slot
  else s)

/-! ## Slot control (R189 to R192) -/

namespace State

/-- A write to a slot register; one to a free slot is ignored. -/
def slotWrite (c : Fin 4) (i : Fin 24) (off : Nat) (f : State → State) (s : State) : State :=
  s.planeWrite (s.hasCore c) (slotAddr c.val i.val off) fun t => if (t.slot c i).state = .free then t else f t

def slotCerr (c : Fin 4) (i : Fin 24) (s : State) : State := s.onSlot c i fun x => { x with cerr := true }

/-- RUN (R189, R192). A RUN that meets a PARK still waiting parks first (log entry 27). An activation in progress refuses it (R66). -/
def runSlot (c : Fin 4) (i : Fin 24) (s : State) : State :=
  let x := s.slot c i
  if (s.outerOf c i).isSome then s.slotCerr c i
  else if x.state = .running then s
  else if (x.state = .parked && s.flt.safe) || s.top.state == .activating then s.slotCerr c i
  else ((if x.parking then s.parkSlot c i else s).releaseSlot c i).leaveQuiet .control

/-- The slot stops sampling, after a tick that has come; a PARK parks it after its last delivery. -/
def stopSlot (c : Fin 4) (i : Fin 24) (park : Bool) (s : State) : State :=
  let ticked := (s.chainFrom c 2 i).foldl (fun t k => if t.tickDue c k then t.sampleTick c k else t) s
  (s.chainFrom c 2 i).foldl (fun t k =>
    if park then
      (if (t.slot c k).outs = [] then t.parkSlot c k
      else t.onSlot c k fun z => { z.dropNext with state := .parked, parking := true })
    else t.onSlot c k fun z => { z with state := .holding }) ticked

/-- HOLD; of a heater or pump it acts as PARK. -/
def holdSlot (c : Fin 4) (i : Fin 24) (s : State) : State :=
  let x := s.slot c i
  if (s.outerOf c i).isSome || s.seamArmed x then s.slotCerr c i
  else if x.state = .running then s.stopSlot c i (x.cfg.law = 4 || x.cfg.law = 5) else s

/-- PARK. -/
def parkWrite (c : Fin 4) (i : Fin 24) (s : State) : State :=
  let x := s.slot c i
  if (s.outerOf c i).isSome || s.seamArmed x then s.slotCerr c i
  else if x.state = .running || x.state = .holding then s.stopSlot c i true else s

end State

def execSlotRun (core : Fin 4) (slot : Fin 24) (s : State) : Res := .next (s.slotWrite core slot 8 (State.runSlot core slot))

def execSlotHold (core : Fin 4) (slot : Fin 24) (s : State) : Res := .next (s.slotWrite core slot 8 (State.holdSlot core slot))

def execSlotPark (core : Fin 4) (slot : Fin 24) (s : State) : Res := .next (s.slotWrite core slot 8 (State.parkWrite core slot))

/-! ## Coefficients (R208) -/

def Slot.commitCoefs (x : Slot) : Slot :=
  if x.coefShadow.outMax ≤ x.coefShadow.outMin || x.coefShadow.iLim < 0 then { x with cerr := true }
  else { x with coefPend := some x.coefShadow }

def Slot.discardCoefs (x : Slot) : Slot := { x with coefPend := none }

def execCoefCommit (core : Fin 4) (slot : Fin 24) (s : State) : Res :=
  .next (s.slotWrite core slot 0x3C fun t => t.onSlot core slot Slot.commitCoefs)

def execCoefDiscard (core : Fin 4) (slot : Fin 24) (s : State) : Res :=
  .next (s.slotWrite core slot 0x3C fun t => t.onSlot core slot Slot.discardCoefs)

/-! ## Generator commands (R212 to R215) -/

/-- The command in the slot's generator registers. -/
def Gen.written (op : Nat) (g : Gen) : GenCmd :=
  { op := op, target := g.regTarget, vel := g.regVel, acc := g.regAcc, jerk := g.regJerk }

/-- A generator takes a command: at the next tick, or stored while a seam holds its axis. -/
def Gen.take (op : Nat) (g : Gen) : Gen :=
  if g.seam = .none then { g with next := some (g.written op) } else { g with held := some (g.written op) }

/-- GCMD.GO (R212): refused without a generator, for a MOVE in velocity mode, and for OP 0b11; a clip raises 0x44 (R213). -/
def State.generatorGo (c : Fin 4) (i : Fin 24) (op : Nat) (s : State) : State :=
  let s1 := s.onSlot c i fun y => { y with gen := { y.gen with regOp := op } }
  let x := s1.slot c i
  if !x.cfg.hasGen || op = 3 || (op = 1 && x.velmode) then s1.slotCerr c i
  else
    let clip := (x.gen.written op).clipped x.cfg
    (s1.onSlot c i fun y => { y with gen := { y.gen.take op with clip := y.gen.clip || clip } }).raiseIf clip .control 0x44 5
      (State.slotIndex c i)

def execGenStop (core : Fin 4) (slot : Fin 24) (s : State) : Res :=
  .next (s.slotWrite core slot 0x80 (State.generatorGo core slot 0))

def execGenMove (core : Fin 4) (slot : Fin 24) (s : State) : Res :=
  .next (s.slotWrite core slot 0x80 (State.generatorGo core slot 1))

def execGenJog (core : Fin 4) (slot : Fin 24) (s : State) : Res :=
  .next (s.slotWrite core slot 0x80 (State.generatorGo core slot 2))

/-- GO with OP = 0b11 (R212): CERR, and no command changes. -/
def execGcmdGoReservedOp (core : Fin 4) (slot : Fin 24) (s : State) : Res :=
  .next (s.slotWrite core slot 0x80 (State.generatorGo core slot 3))

/-! ## Test signals (R216) -/

/-- GO is refused. -/
def State.testRefused (c : Fin 4) (x : Slot) (s : State) : Bool :=
  x.state != .running || 320000000 < s.coreLoad c + (if x.ts.active then 0 else 24 * x.cfg.rate) || s.seamArmed x ||
    (x.cfg.law = 6 && x.ts.point) ||
    (x.ts.kind = 3 && (x.ts.len < 2 || x.ts.f0 < 1 || x.ts.f1 ≤ x.ts.f0 || 8 * x.cfg.rate < x.ts.f1))

def State.testGo (c : Fin 4) (i : Fin 24) (s : State) : State :=
  if s.testRefused c (s.slot c i) then s.slotCerr c i else s.onSlot c i fun x => { x with ts := x.ts.start }

def execTestSignalGo (core : Fin 4) (slot : Fin 24) (s : State) : Res :=
  .next (s.slotWrite core slot 0xC0 (State.testGo core slot))

def execTestSignalStop (core : Fin 4) (slot : Fin 24) (s : State) : Res :=
  .next (s.slotWrite core slot 0xC0 fun t => t.onSlot core slot fun x => { x with ts := x.ts.stopped })

/-- TEST_SIGNAL_END, after TSLEN samples. -/
def execTestSignalEnd (core : Fin 4) (slot : Fin 24) (s : State) : Res :=
  .next (if s.clocked && (s.slot core slot).ts.active && (s.slot core slot).ts.over then
    s.onSlot core slot fun x => { x with ts := x.ts.stopped }
  else s)

/-! ## Capture (R219) -/

/-- ARM restarts every count. -/
def Core.arm (k : Core) : Core :=
  { k with capRun := k.capEn, capFull := 0, capCnt := Vector.replicate 4 0 }

def execCaptureArm (core : Fin 4) (s : State) : Res :=
  .next (s.planeWrite (s.hasCore core) (lpcAddr core.val 0x10) fun t => t.onCore core Core.arm)

def execCaptureStop (core : Fin 4) (s : State) : Res :=
  .next (s.planeWrite (s.hasCore core) (lpcAddr core.val 0x10) fun t => t.onCore core fun k => { k with capRun := 0 })

/-- The capture word at CAPADDR, with the sources of its read (R254). -/
def State.readCapture (c : Fin 4) (s : State) : State :=
  let a := 4 * (s.core c).capAddr
  (s.noteRead (c.val + 1) (s.mem.read (c.val + 1) a 4) false).onCore c fun k => { k with capAddr := (k.capAddr + 1) % 16384 }

def execCapdataRead (core : Fin 4) (s : State) : Res :=
  .next (s.planeRead (s.hasCore core) (lpcAddr core.val 0x44)
    (fun t => t.mem.word32 (core.val + 1) (4 * (t.core core).capAddr)) (State.readCapture core))

/-! ## Reads -/

/-- LTIMELO_READ (R185). -/
def State.latchLoopTime (c : Fin 4) (s : State) : State :=
  s.onCore c fun k => { k with timeHi := s.times.loop.extractLsb' 32 16 }

def execLtimeloRead (core : Fin 4) (s : State) : Res :=
  .next (s.planeRead (s.hasCore core) (lpcAddr core.val 4) (fun t => t.times.loop.setWidth 32) (State.latchLoopTime core))

/-- SAMPLELO_READ (R186). -/
def State.latchSample (c : Fin 4) (i : Fin 24) (s : State) : State :=
  s.onSlot c i fun x => { x with sampleHi := BitVec.ofNat 16 (x.kLatest / 2 ^ 32) }

def execSampleloRead (core : Fin 4) (slot : Fin 24) (s : State) : Res :=
  .next (s.planeRead (s.hasCore core) (slotAddr core.val slot.val 0x10) (fun t => BitVec.ofNat 32 (t.slot core slot).kLatest)
    (State.latchSample core slot))

/-- MISSCNT_READ (R188). -/
def execMisscntRead (core : Fin 4) (slot : Fin 24) (s : State) : Res :=
  .next (s.planeRead (s.hasCore core) (slotAddr core.val slot.val 0x18) (fun t => BitVec.ofNat 32 (t.slot core slot).misscnt)
    fun t => t.onSlot core slot fun x => { x with misscnt := 0 })

/-! ## Migration (R220 to R222) -/

namespace State

/-- The destination slot exists, is free and not reserved. -/
def slotFree (c i : Nat) (s : State) : Bool :=
  match fin? 4 c, fin? 24 i with
  | some a, some b => s.hasCore a && (s.slot a b).state = .free && (s.slot a b).mig.fromSlot.isNone
  | _, _ => false

/-- The first failing REASON of R220; 0 where none applies. -/
def migrationRefusal (c : Fin 4) (i : Fin 24) (s : State) : Nat :=
  let x := s.slot c i
  let m := x.mig
  if x.state != .running then 1
  else if x.cfg.law = 3 then 2
  else if m.dcore = c.val || !((fin? 4 m.dcore).any s.hasCore) then 3
  else if !s.slotFree m.dcore m.dslot then 4
  else if 320000000 < ((fin? 4 m.dcore).map s.coreLoad).getD 0 + slotCost x * x.cfg.rate then 5
  else if m.h < x.kNext then 6
  else if m.pend then 7
  else if x.gen.seam != .none then 8
  else 0

/-- MIGCTRL.GO: the destination is reserved, and the request goes to both schedulers, which it reaches in 64 cycles (log entry
28). -/
def migrate (c : Fin 4) (i : Fin 24) (s : State) : State :=
  let why := s.migrationRefusal c i
  if why != 0 then s.onSlot c i fun x => { x with cerr := true, mig := { x.mig with reason := why } }
  else
    let m := (s.slot c i).mig
    let s1 := s.onSlot c i fun x =>
      { x with mig := { x.mig with pend := true, reach := s.loopNow + 64, toCore := m.dcore, toSlot := m.dslot, toH := m.h } }
    match fin? 4 m.dcore, fin? 24 m.dslot with
    | some a, some b => s1.onSlot a b fun x => { x with mig := { x.mig with fromSlot := some (c.val, i.val) } }
    | _, _ => s1

/-- The slot has completed every sample before the handover, and the request has reached its core. -/
def mayTransfer (c : Fin 4) (i : Fin 24) (s : State) : Bool :=
  let x := s.slot c i
  x.mig.pend && reached x.mig.reach s.loopNow && x.mig.toH ≤ x.kNext && x.jobs.all fun j => x.mig.toH ≤ j.k

end State

/-- An output still to come of a job the source core is running: it lies beyond the handover and is discarded (R221). -/
def Slot.inFlight (running : Bool) (x : Slot) : List Out :=
  match (if running then x.jobs.find? fun j => !j.ran else none) with
  | some j => [{ k := j.k, tOut := j.tOut, epoch := x.epoch, value := .park, u := 0, complete := true, stale := true }]
  | none => []

/-- The slot as it arrives at its destination from slot `source` (R222). -/
def Slot.arrived (dcore dslot : Nat) (source : Nat × Nat) (running : Bool) (x : Slot) : Slot :=
  { x with cfg := { x.cfg with core := dcore, slot := dslot }, epoch := x.epoch + 1
           jobs := x.jobs.map fun j => { j with ran := false }
           outs := (x.inFlight running).foldl (fun l o => insertOut o l)
             (x.outs.map fun o => if o.stale then o else if o.k < x.mig.toH then { o with source := some (o.source.getD source) }
               else { o with epoch := x.epoch + 1 })
           mig := { x.mig with pend := false, done := true, fromSlot := none } }

/-- The transfer of R222. The capture of the slot's samples ends on the core it leaves, and that of its deliveries with the last one of
them (R219). -/
def State.transfer (c : Fin 4) (i : Fin 24) (s : State) : State :=
  let x := s.slot c i
  match fin? 4 x.mig.toCore, fin? 24 x.mig.toSlot with
  | some a, some b =>
    let y := x.arrived a.val b.val (c.val, i.val) ((s.core c).running == some i.val)
    let s1 := ((s.onSlot a b fun _ => y).onSlot c i fun _ => {}).onCore c (Core.lost i.val false)
    let s2 := if y.outs.any fun o => o.source == some (c.val, i.val) then s1 else s1.onCore c (Core.lost i.val true)
    s2.onCore a (Core.start s.loopNow)
  | _, _ => s

def execMigrationGo (core : Fin 4) (slot : Fin 24) (s : State) : Res :=
  .next (s.slotWrite core slot 0xE0 (State.migrate core slot))

/-- MIGRATION_TRANSFER (R222). -/
def execMigrationTransfer (core : Fin 4) (slot : Fin 24) (s : State) : Res :=
  .next (if s.clocked && s.mayTransfer core slot then s.transfer core slot else s)

/-- MIGSTAT. -/
def Mig.word (m : Mig) : Word := pack [(16, 16, m.discards), (8, 8, m.reason), flag 1 m.done, flag 0 m.pend]

/-- DISCARDS_READ (R221). A free slot's register reads 0 (R222). -/
def State.migWord (c : Fin 4) (i : Fin 24) (s : State) : Word := if (s.slot c i).state = .free then 0 else (s.slot c i).mig.word

def execDiscardsRead (core : Fin 4) (slot : Fin 24) (s : State) : Res :=
  .next (s.planeRead (s.hasCore core) (slotAddr core.val slot.val 0xEC) (State.migWord core slot)
    fun t => t.onSlot core slot fun x => { x with mig := { x.mig with discards := 0 } })

end Sys2Proof.Machine
end

