-- ==== Sys2Proof/Machine/Seams.lean ====
section
/-!
DEFINITION. The seam handshake (R22, R23, R157 to R163): the receipt of its four messages and what the seam slot and the axis do between
them; the cap carried to the seam slot (R153).
-/

namespace Sys2Proof.Machine

namespace State

/-! ## The control side -/

/-- The position nearest the axis whose low 29 bits a message carries (R154). -/
def nearestPos (x : Int) (fpos : BitVec 29) : Int := x + signed 29 (twos 29 (fpos.toNat - x))

/-- Ports of an axis whose exchange the control side holds. -/
def holders (n : Fin 8) (s : State) : List (Fin 4) := (s.axisPorts n).filter fun p => (s.port p).seam.axisHolds

/-- Forward sense of an axis. -/
def forwardSign (n : Fin 8) (s : State) : Int := if (s.axis n).fwd = 2 then -1 else 1

/-- A scan-mode port names the axis (R162). -/
def scanAxis (n : Fin 8) (s : State) : Bool := (s.axisPorts n).any fun p => (s.prof p).scan

/-- The stop line's position that lies least far forward among the holders (R163). -/
def leastForward (n : Fin 8) (s : State) : Option Int :=
  let f := s.forwardSign n
  match (s.holders n).map fun p => (s.port p).seam.axisFpos * f with
  | [] => none
  | x :: rest => some (f * rest.foldl min x)

/-- Apply a function to the generator of an axis' seam slot. -/
def onSeamGen (n : Fin 8) (f : Gen → Gen) (s : State) : State :=
  match s.seamSlot n with
  | some x => s.onSlot x.1 x.2 fun k => { k with gen := f k.gen }
  | none => s

/-- The generator of an axis' seam slot. -/
def seamGen (n : Fin 8) (s : State) : Option Gen := (s.seamSlot n).map fun x => (s.slot x.1 x.2).gen

end State

/-- The axis goes back to host commands (R215): a stored command applies, or the one in force goes on, planned anew. -/
def Gen.handBack (g : Gen) : Gen :=
  { g with seam := .none, noCreep := false, next := g.held.orElse fun _ => g.next, held := none, replan := g.held.isNone }

/-- The generator is at rest. -/
def Gen.atRest (g : Gen) : Bool := g.v = 0 && g.a = 0 && !g.busy

/-- What SEAM_STOP makes of the generator (R157, R162, R163): deceleration through the creep phase, or at once to a stop in a run-up; a
carriage completes its move. -/
def Gen.seamStop (scan again : Bool) (g : Gen) : Gen :=
  match g.seam with
  | .none => if scan || again then { g with seam := .stopping, noCreep := again, replan := !scan } else { g with seam := .creep, replan := true }
  | .running => { g with seam := .stopping, noCreep := true, replan := true }
  | _ => g

namespace State

/-- A message of the port on a link, the oldest that satisfies a condition on its payload. -/
def seamMessage (toControl : Bool) (type : BitVec 8) (p : Fin 4) (f : BitVec 64 → Bool) (s : State) : Option (BitVec 96) :=
  if s.clocked then
    s.arrived (if toControl then 1 else 0) type fun x => seamPort x == BitVec.ofNat 2 p.val && f x
  else none

/-- SEAM_STOP reaches the control plane (R22, R157, R191); one with another stop line than the one in force is ignored (R23), and so is one
in the safe state, which has ended every seam (R163). One that meets the run-up with its own stop line is a cause during the run-up
(R163). -/
def takeSeamStop (p : Fin 4) (n : Fin 8) (x : Fin 4 × Fin 24) (tag : BitVec 32) (fpos : BitVec 29) (s : State) : State :=
  let m := (s.port p).seam
  if s.flt.safe || (m.axisHolds && !m.axisRuns && m.axisLine != tag) then s
  else
    let again := m.axisLine = tag && m.axisResume && (m.axisRuns || !m.axisHolds)
    let s1 := s.onPort p fun q =>
      { q with seam := { q.seam with axisHolds := true, axisLine := tag, axisFpos := nearestPos (s.axisPos n) fpos, axisResume := false
                                     axisRuns := false } }
    let sl := s1.slot x.1 x.2
    let s2 := if sl.state = .parked || sl.state = .holding then s1.releaseSlot x.1 x.2 else s1
    s2.onSeamGen n (Gen.seamStop (s.scanAxis n) again)

end State

/-- SEAM_STOP (R157), once the control plane has accepted the message. -/
def execSeamStop (port : Fin 4) (tag : BitVec 32) (fpos : BitVec 29) (s : State) : Res :=
  .next (match s.seamMessage true typeSeamStop port fun x => seamTag x == tag && seamFpos x == fpos with
    | some m =>
      let s1 := s.takeMessage 1 m
      match s1.portAxis port with
      | some n =>
        match s1.seamSlot n with
        | some x => s1.takeSeamStop port n x tag fpos
        | none => s1
      | none => s1
    | none => s)

namespace State

/-- d of R65 at a speed with 16 fractional bits, rounded up to a count. -/
def stopCounts (r : SlotRec) (v16 : Nat) : Nat := stopCeil 1 1 (ceilDiv (64 * v16) 65536) r.amax r.j

/-- x_b of R157, rounded away from the stop line. -/
def backUpTo (n : Fin 8) (x : Fin 4 × Fin 24) (s : State) : Int :=
  let f := s.forwardSign n
  let sl := s.slot x.1 x.2
  let rest := f * (s.axisCount n).toInt
  let backup := (s.axisPorts n).foldl (fun b p => max b (s.prof p).backup) 0
  let stop := f * countAt ((s.leastForward n).getD 0)
  let vp := (sl.gen.printSpeed sl.cfg (s.axisView sl)).toNat
  f * min (rest - backup) (stop - stopCounts sl.cfg (sl.cfg.vmax * 65536) - stopCounts sl.cfg vp - 4)

/-- The data side sees its axis back up. -/
def showBackingUp (n : Fin 8) (s : State) : State :=
  (s.holders n).foldl (fun t p => t.onPort p fun q =>
    if q.seam.state = 1 then { q with seam := { q.seam with state := 2 } } else q) s

/-- The axis at rest after its stop: it backs up, or the seam ends where no port holds it (R157, R163). -/
def startBackUp (n : Fin 8) (x : Fin 4 × Fin 24) (s : State) : State :=
  if s.holders n = [] then s.onSeamGen n Gen.handBack
  else
    let b := s.backUpTo n x
    (s.onSeamGen n fun g => { g with seam := .backing, noCreep := false, xb := b, replan := true }).showBackingUp n

end State

/-- SEAM_BACKUP_START (R157). -/
def execSeamBackupStart (axis : Fin 8) (s : State) : Res :=
  .next (match s.seamSlot axis with
    | some x =>
      let g := (s.slot x.1 x.2).gen
      if s.clocked && g.seam = .stopping && g.atRest && !g.replan && !s.scanAxis axis then s.startBackUp axis x else s
    | none => s)

namespace State

/-- The axis is held: HWM takes the count at the stop line that lies least far forward (R109), and SEAM_HELD goes to every holder. -/
def holdAxis (n : Fin 8) (s : State) : State :=
  let hwm := BitVec.ofNat 32 (twos 32 (countAt ((s.leastForward n).getD 0)))
  let s1 := (s.onSeamGen n fun g => { g with seam := .held }).onAxis n fun a => { a with hwm := hwm }
  (s.holders n).foldl (fun t p =>
    let m := (t.port p).seam
    t.sendSeam false typeSeamHeld m.axisLine p false m.axisFpos) s1

/-- The axis has come to rest where the seam holds it: at x_b, or for a carriage at the end of its move. -/
def axisRests (n : Fin 8) (s : State) : Bool :=
  (s.seamGen n).any fun g => g.atRest && !g.replan && (g.seam = .backing || (g.seam = .stopping && s.scanAxis n))

/-- SEAM_HELD reaches the port: it holds, and asks to resume as soon as it may (R158). -/
def portHeld (p : Fin 4) (tag : BitVec 32) (s : State) : State :=
  let m := (s.port p).seam
  if (m.state = 1 || m.state = 2) && m.tag = tag then
    (s.onPort p fun q => { q with seam := { q.seam with state := 3 } }).pollSeam p
  else s

end State

/-- SEAM_HELD (R157, R158): an axis at rest where the seam holds it sends the message, and the port takes one that has arrived. -/
def execSeamHeld (port : Fin 4) (tag : BitVec 32) (s : State) : Res :=
  .next (
    let s1 := match s.portAxis port with
      | some n => if s.clocked && s.axisRests n then s.holdAxis n else s
      | none => s
    match s1.seamMessage false typeSeamHeld port fun x => seamTag x == tag with
    | some m => (s1.takeMessage 0 m).portHeld port tag
    | none => s1)

namespace State

/-- The exchange of every holder is over: the axis is back under host commands. -/
def releaseHolders (n : Fin 8) (s : State) : State :=
  (s.holders n).foldl (fun t p => t.onPort p fun q => { q with seam := { q.seam with axisHolds := false, axisRuns := false } }) s

/-- Every holder has asked to resume: HWM takes COUNT, SEAM_RUN goes to each, and the axis runs forward; a carriage's held move is
released (R160, R162, R163). DESIGN CHOICE: on an axis of several ports HWM is set here, once, at the last SEAM_RESUME (log entry
140). -/
def runAxis (n : Fin 8) (s : State) : State :=
  let s1 := s.onAxis n (Axis.rebased (s.axisCount n))
  let s2 := (s.holders n).foldl (fun t p =>
    let m := (t.port p).seam
    (t.sendSeam false typeSeamRun m.axisLine p false m.axisFpos).onPort p fun q => { q with seam := { q.seam with axisRuns := true } }) s1
  if s.scanAxis n then (s2.onSeamGen n Gen.handBack).releaseHolders n
  else s2.onSeamGen n fun g => { g with seam := .running, replan := true }

/-- The axis runs once every port that holds it has asked to resume (R163). -/
def tryRun (n : Fin 8) (s : State) : State :=
  if (s.seamGen n).any (fun g => g.seam = .held) &&
      (s.holders n).all fun k => (s.port k).seam.axisResume && !(s.port k).seam.axisRuns then s.runAxis n
  else s

/-- A cancelled exchange: with no other holder the axis stops where it is and goes back to host commands without a forward run; else it
runs once the others have asked to (R163). -/
def cancelSeam (p : Fin 4) (n : Fin 8) (s : State) : State :=
  let s1 := s.onPort p fun q => { q with seam := { q.seam with axisHolds := false, axisResume := false, axisRuns := false } }
  if s1.holders n = [] then
    s1.onSeamGen n fun g =>
      if g.seam = .none then g
      else if g.atRest || s.scanAxis n then g.handBack
      else { g with seam := .stopping, noCreep := true, replan := true }
  else s1.tryRun n

/-- SEAM_RESUME reaches the control plane; one with another stop line than the one in force is ignored (R23). -/
def takeSeamResume (p : Fin 4) (n : Fin 8) (tag : BitVec 32) (cancel : Bool) (s : State) : State :=
  let m := (s.port p).seam
  if m.axisHolds && m.axisLine = tag then
    if cancel then s.cancelSeam p n
    else (s.onPort p fun q => { q with seam := { q.seam with axisResume := true } }).tryRun n
  else s

end State

/-- SEAM_RESUME (R158, R160, R163), once the control plane has accepted the message. -/
def execSeamResume (port : Fin 4) (tag : BitVec 32) (cancel : Bool) (s : State) : Res :=
  .next (match s.seamMessage true typeSeamResume port fun x => seamTag x == tag && seamCancel x == cancel with
    | some m =>
      let s1 := s.takeMessage 1 m
      match s1.portAxis port with
      | some n => s1.takeSeamResume port n tag cancel
      | none => s1
    | none => s)

/-- The port runs up: lines are assembled again from the resume line; in scan mode an interrupted sweep is run again in its direction
(R159, R162). -/
def Port.runUp (scan : Bool) (q : Port) : Port :=
  let part := scan && q.seam.res % q.sos.lines != 0
  let up := ((q.sos.anchorOf q.seam.res).map (·.up)).getD true
  { q with seam := { q.seam with state := 4, stopFrom := none }
           pdp := { q.pdp with asm := [], assembled := (q.seam.res : Int) - 1 }
           sos := { q.sos with between := q.sos.between || part, rerun := if part then some up else none } }

/-- SEAM_RUN reaches the port (R160); a cause that arose meanwhile stops the seam again (R163). -/
def State.portRuns (p : Fin 4) (tag : BitVec 32) (s : State) : State :=
  let m := (s.port p).seam
  if m.state = 3 && m.resumed && m.tag = tag then
    let s1 := s.onPort p (Port.runUp (s.prof p).scan)
    if m.blocked then s1.rejoinSeam p else s1
  else s

/-- SEAM_RUN (R160), once the port has accepted the message. -/
def execSeamRun (port : Fin 4) (tag : BitVec 32) (s : State) : Res :=
  .next (match s.seamMessage false typeSeamRun port fun x => seamTag x == tag with
    | some m => (s.takeMessage 0 m).portRuns port tag
    | none => s)

/-- SEAM_HANDBACK (R160): at v_p the axis goes back to host commands. -/
def execSeamHandback (axis : Fin 8) (s : State) : Res :=
  .next (match s.seamSlot axis with
    | some x =>
      let sl := s.slot x.1 x.2
      if s.clocked && sl.gen.seam = .running && !sl.gen.replan && sl.gen.steady (sl.gen.goal sl.cfg (s.axisView sl)) then
        (s.onSeamGen axis Gen.handBack).releaseHolders axis
      else s
    | none => s)

namespace State

/-- v_lim of an axis: the lowest v_r × cap / 100 of its ports (R153), counts/s with 16 fractional bits. -/
def seamLimit (n : Fin 8) (s : State) : Option Nat :=
  match (s.axisPorts n).map fun p => (s.prof p).rated64 * s.cap p * 65536 / 6400 with
  | [] => none
  | x :: rest => some (rest.foldl min x)

/-- A changed cap is carried to the seam slot, which plans anew (R153). -/
def carryCap (p : Fin 4) (s : State) : State :=
  let s1 := s.onPort p fun q => { q with fire := { q.fire with capSent := s.cap p } }
  match s.portAxis p with
  | some n => s1.onSeamGen n fun g => { g with vlim := s1.seamLimit n, replan := true }
  | none => s1

end State

/-- CAP_CHANGE (R153), where the port's cap differs from the one last carried. -/
def execCapChange (port : Fin 4) (s : State) : Res :=
  .next (if s.clocked && (s.profile port).isSome && (s.port port).fire.capSent != s.cap port then s.carryCap port else s)

end Sys2Proof.Machine
end

