-- ==== Sys2Proof/Machine/Sprigs.lean ====
section
/-!
DEFINITION. The commands of the sprigs (R73 to R94). Their registers belong to the control plane; a sprig beyond SPRIGS is an
absent unit (R33).
-/

namespace Sys2Proof.Machine

/-- A write to a sprig register. -/
def State.sprigWrite (n : Fin 96) (off : Nat) (f : State → State) (s : State) : State :=
  s.planeWrite (s.hasSprig n) (sprigAddr n.val off) f

/-- SPRIG_COMMIT (R75, R77). -/
def execSprigCommit (n : Fin 96) (s : State) : Res := .next (s.sprigWrite n 4 (State.commitSprig n false))

/-- SPRIG_COMMIT_IDLE (R79). -/
def execSprigCommitIdle (n : Fin 96) (s : State) : Res := .next (s.sprigWrite n 4 (State.commitSprig n true))

/-- SPRIG_DISCARD (R75). -/
def execSprigDiscard (n : Fin 96) (s : State) : Res := .next (s.sprigWrite n 4 (State.discardSprig n))

/-- SPRIG_BOUNDARY (R76): the pending set and the slot's output become active. -/
def execSprigBoundary (n : Fin 96) (s : State) : Res := .next (s.sprigBoundary n)

/-- Every sprig named in FAB_GCMASK commits on its own (R78). -/
def State.groupCommit (s : State) : State :=
  (List.finRange 96).foldl (fun t n =>
    if ((elem? s.fab.gcmask (n.val / 32)).getD 0).getLsbD (n.val % 32) && s.hasSprig n then t.commitSprig n false else t) s

/-- GROUP_COMMIT (R78). -/
def execGroupCommit (s : State) : Res := .next (s.planeWrite true 0x10803C State.groupCommit)

/-- INPUT_EDGE_ACCEPT (R73). -/
def execInputEdgeAccept (n : Fin 96) (drives : List (Fin 4 × Option Bool)) (stamp : Time48) (s : State) : Res :=
  .next (if s.clocked then s.inputEdge n (drives.map fun c => ⟨c.1, c.2, stamp⟩) else s)

/-- A PWM sprig's next period, once the one in progress has ended: its boundary, then the edges of the period for it and its gang (R76,
R82, R84). -/
def State.startPeriod (n : Fin 96) (s : State) : State :=
  let s1 := s.applyBoundary n
  let g := s1.sprig n
  if (g.mode = 1 || g.mode = 2) && g.gang = 0 && g.active && !g.holdLvl && s.clocked then
    let s2 := s1.placePeriod n.val g
    if g.mode = 2 then (s2.placePeriod (n.val + 1) g).placePeriod (n.val + 2) g else s2
  else s1

/-- PWM_PERIOD_START (R82). -/
def execPwmPeriodStart (n : Fin 96) (s : State) : Res :=
  .next (if ((s.sprig n).mode = 1 || (s.sprig n).mode = 2) && (s.sprig n).atBoundary s.times.fab then s.startPeriod n else s)

/-- One step in units of the phase accumulator: 1/16 step/s for 5 ns adds 1 (R88). -/
def stepUnit : Nat := 3200000000

/-- The first grid instant at which the phase was one, P2 after the DIR edge at the earliest (R88). -/
def Sprig.stepTime (now : Time48) (g : Sprig) : Time48 :=
  let crossed := now - BitVec.ofNat 48 (min 3 ((g.step.phase - stepUnit) * 4 / g.step.rate.natAbs))
  match g.step.setup with
  | some e => laterTime crossed (e + BitVec.ofNat 48 (nsSteps g.p2))
  | none => crossed

/-- P2 has passed since the DIR edge, and DIR has moved (R88). -/
def Sprig.dirSettled (now : Time48) (g : Sprig) : Bool :=
  g.step.setup.all fun e => !later e now && nsSteps g.p2 ≤ since now e

/-- A step is due: the phase has reached one and P2 has passed since DIR moved. DESIGN CHOICE: the phase goes on growing while P2 runs,
so that every step which fell due meanwhile is emitted after it, one a STEP_EMIT (log entry 62). -/
def Sprig.stepDue (now : Time48) (g : Sprig) : Bool :=
  g.mode = 4 && g.active && g.step.rate != 0 && stepUnit ≤ g.step.phase && g.dirSettled now

/-- The step is emitted: its pulse lasts P1, the count moves, and LIMIT runs down (R88, R89). -/
def Sprig.emitStep (now : Time48) (g : Sprig) : Sprig :=
  let limited := reg g.act 1 != 0
  let last := limited && g.step.remain ≤ 1
  { g with
    step := { g.step with
      phase := g.step.phase - stepUnit, steps := if g.step.rate < 0 then g.step.steps - 1 else g.step.steps + 1
      pulse := some (g.stepTime now + BitVec.ofNat 48 (nsSteps g.p1)), remain := if limited then g.step.remain - 1 else 0
      rate := if last then 0 else g.step.rate }
    event := if last then g.event ||| 1 else g.event }

/-- STEP_EMIT (R88). -/
def execStepEmit (n : Fin 96) (s : State) : Res :=
  .next (s.onSprig n fun g => if s.clocked && !s.outputsHeld && g.stepDue s.times.fab then g.emitStep s.times.fab else g)

/-- A peak-and-hold sprig's action on a sample (R90); a sample is 12.8 µs. -/
def Sprig.sample (code : Nat) (g : Sprig) : Sprig :=
  let on := g.active && (g.act[0]).getLsbD 0
  let hold := reg g.act 1
  let hyst := reg g.act 2
  let k := g.peak.peakSamples + 1
  let off : PeakHold := { g.peak with phase := 0, drive := false, current := code }
  match g.peak.phase with
  | 0 =>
    if on then { g with peak := { g.peak with phase := 1, drive := true, current := code, peakSamples := 0, peakUs := 0 } }
    else { g with peak := { g.peak with current := code } }
  | 1 =>
    let us := min 0xFFFF (64 * k / 5)
    if !on then { g with peak := { off with peakUs := us } }
    else if g.p0 ≤ code then { g with peak := { g.peak with phase := 2, drive := false, current := code, peakSamples := k, peakUs := us } }
    else if 5 * g.p2 ≤ 64 * k then
      { g with peak := { g.peak with phase := 2, drive := false, current := code, peakSamples := k, peakUs := us
                                     pto := satAdd 0xFFFF g.peak.pto 1 }
               event := g.event ||| 1 }
    else { g with peak := { g.peak with current := code, peakSamples := k, peakUs := us } }
  | _ =>
    if !on then { g with peak := off }
    else if hold + hyst ≤ code then { g with peak := { g.peak with drive := false, current := code } }
    else if code + hyst ≤ hold then { g with peak := { g.peak with drive := true, current := code } }
    else { g with peak := { g.peak with current := code } }

/-- A sample of the sprig's channel has come since the last one it acted on. -/
def State.sampleFresh (n : Fin 96) (s : State) : Bool := s.adcReady && (s.sprig n).mode = 5 && (s.sprig n).peak.seen != s.cal.samples

/-- PEAK_HOLD_SAMPLE (R90): the sprig acts once on each sample of its channel, the one that loop slots see, and the sample is its boundary
(R76). No channel delivers a sample before the start-up calibration is complete (R306). The operand names the code delivered (log entry 10). -/
def execPeakHoldSample (n : Fin 96) (code : BitVec 16) (s : State) : Res :=
  .next (if s.sampleFresh n && s.adcCode (s.sprig n).adc = code.toNat then
    (s.applyBoundary n).onSprig n fun g =>
      let x := g.sample code.toNat
      { x with peak := { x.peak with seen := s.cal.samples } }
  else s)

/-- What a tach publishes at a gate's end (R93); TFREQ is rounded down (log entry 22). -/
def Tach.publish (t : Tach) : Tach :=
  let dt := (t.last.map fun u => since u t.first).getD 0
  let period := match t.prev, t.last with
    | some a, some b => min 0xFFFFFFFF (since b a)
    | _, _ => 0
  { t with n := t.count, tfreq := BitVec.ofNat 32 (if t.count < 2 || dt = 0 then 0 else 16 * (t.count - 1) * 800000000 / dt)
           period := BitVec.ofNat 32 period, count := 0 }

/-- The gate in progress has lasted GATE µs (R93). -/
def Sprig.gateOver (now : Time48) (g : Sprig) : Bool := 800 * reg g.act 0 ≤ since now g.tach.start

/-- TACH_GATE_END (R93): the results of the gate, and its boundary (R76); the next gate starts. -/
def execTachGateEnd (n : Fin 96) (s : State) : Res :=
  .next (if s.clocked && !s.swapHold && (s.sprig n).mode = 8 && (s.sprig n).gateOver s.times.fab then
    (s.onSprig n fun g => { g with tach := { g.tach.publish with start := s.times.fab }, event := g.event ||| 1 }).applyBoundary n
  else s)

/-! ## Measurements -/

/-- A CAPLO read removes the oldest entry of a terminal and latches it (R91). -/
def Capture.take (t : Fin 4) (c : Capture) : Capture :=
  match c.queues[t.val] with
  | [] => { c with latch := c.latch.set t.val {} t.isLt }
  | e :: rest =>
    { queues := c.queues.set t.val rest t.isLt, lost := c.lost &&& ~~~(1#4 <<< t.val)
      latch := c.latch.set t.val { valid := true, rising := e.rising, ovf := c.lost.getLsbD t.val, hi := e.time.extractLsb' 32 16 } t.isLt }

/-- CAPHI of a terminal. -/
def CapLatch.word (l : CapLatch) : Word := pack [flag 31 l.valid, flag 30 l.rising, flag 29 l.ovf, (0, 16, l.hi.toNat)]

/-- The word a read of FABn_MEASk returns, by mode (R82 to R94). -/
def Sprig.measWord (k : Nat) (g : Sprig) : Word :=
  let low (t : Time48) : Word := t.setWidth 32
  match g.mode, k with
  | 1, 0 => g.pwm.periods
  | 1, 1 => BitVec.ofNat 32 g.pwm.dApplied
  | 2, 0 => g.pwm.periods
  | 2, 1 => BitVec.ofNat 32 g.pwm.dApplied
  | 3, 0 => g.quad.count
  | 3, 1 => g.quad.idxLatch
  | 3, 2 => BitVec.ofNat 32 g.quad.illegal
  | 3, 3 => g.quad.idxCount.setWidth 32
  | 4, 0 => g.step.steps
  | 4, 1 => BitVec.ofNat 32 g.step.remain
  | 5, 0 => BitVec.ofNat 32 g.peak.current
  | 5, 1 => pack [(16, 2, g.peak.phase), (0, 16, g.peak.peakUs)]
  | 5, 2 => BitVec.ofNat 32 g.peak.pto
  | 6, k => if k < 4 then ((((elem? g.cap.queues k).getD []).head?.map fun e => low e.time)).getD 0
            else if k < 8 then ((elem? g.cap.latch (k - 4)).map CapLatch.word).getD 0 else 0
  | 7, 0 => low g.sos.time
  | 7, 1 => g.sos.hiLatch.setWidth 32
  | 7, 2 => g.sos.count
  | 0xA, 0 => low g.sos.time
  | 0xA, 1 => g.sos.hiLatch.setWidth 32
  | 0xA, 2 => g.sos.count
  | 8, 0 => BitVec.ofNat 32 g.tach.n
  | 8, 1 => g.tach.tfreq
  | 8, 2 => g.tach.period
  | 9, 0 => (g.tin).setWidth 32
  | _, _ => 0

/-- What the read does: latches and clears. -/
def Sprig.measRead (k : Nat) (g : Sprig) : Sprig :=
  match g.mode, k with
  | 3, 2 => { g with quad := { g.quad with illegal := 0 } }
  | 5, 2 => { g with peak := { g.peak with pto := 0 } }
  | 6, k => match fin? 4 k with
    | some t => { g with cap := g.cap.take t }
    | none => g
  | 7, 0 => { g with sos := { g.sos with hiLatch := g.sos.time.extractLsb' 32 16 } }
  | 0xA, 0 => { g with sos := { g.sos with hiLatch := g.sos.time.extractLsb' 32 16 } }
  | _, _ => g

/-- A read of FABn_MEASk. -/
def State.readMeas (n : Fin 96) (k : Nat) (s : State) : State :=
  s.planeRead (s.hasSprig n) (sprigAddr n.val (0x30 + 4 * k)) (fun t => (t.sprig n).measWord k) fun t => t.onSprig n (Sprig.measRead k)

/-- CAPLO_READ (R91). -/
def execCaploRead (n : Fin 96) (term : Fin 4) (s : State) : Res := .next (s.readMeas n term.val)

/-- SOS_TSLO_READ (R92). -/
def execSosTsloRead (n : Fin 96) (s : State) : Res := .next (s.readMeas n 0)

/-- ILLEGAL_READ (R86). -/
def execIllegalRead (n : Fin 96) (s : State) : Res := .next (s.readMeas n 2)

/-- PTO_READ (R90). -/
def execPtoRead (n : Fin 96) (s : State) : Res := .next (s.readMeas n 2)

/-- A FAB_TIMELO read latches FAB_TIMEHI (R74). -/
def State.latchFabTime (s : State) : State := s.onFab fun b => { b with timeHi := s.times.fab.extractLsb' 32 16 }

/-- FAB_TIMELO_READ (R74). -/
def execFabTimeloRead (s : State) : Res :=
  .next (s.planeRead true 0x108040 (fun t => t.times.fab.setWidth 32) State.latchFabTime)

end Sys2Proof.Machine
end

