-- ==== Sys2Proof/Machine/OtpOps.lean ====
section
/-!
DEFINITION. Shared operations of the OTP array (R323 to R331): the classes of its bits, seals, region states, the values in force, and
the boot reads.
-/

namespace Sys2Proof.Machine

/-! ## Bits of a word (R324) -/

/-- Bits that are solid 1: at least one copy reads 1 under the tight reference. -/
def OtpWord.tight (w : OtpWord) : Word := w.aTight ||| w.bTight

/-- Bits some copy reads as 1 under the loose reference. -/
def OtpWord.loose (w : OtpWord) : Word := w.aTight ||| w.aLoose ||| w.bTight ||| w.bLoose

/-- Marginal bits. -/
def OtpWord.marginal (w : OtpWord) : Word := w.loose &&& ~~~w.tight

/-- The one-bits of a word. -/
def countOnes (w : Word) : Nat := ((List.range 32).filter fun i => w.getLsbD i).length

/-- Weak copies beside solid ones. -/
def OtpWord.weakCopies (w : OtpWord) : Nat :=
  countOnes (w.aLoose &&& ~~~w.aTight &&& w.bTight) + countOnes (w.bLoose &&& ~~~w.bTight &&& w.aTight)

/-! ## Regions (R326) -/

/-- A region: its data words, reserved ones included, its seal word and its lock word. -/
structure OtpRegion where
  data : List Nat
  sealWord : Nat
  lockWord : Nat
  deriving DecidableEq, Repr, Inhabited

/-- Regions by REG. -/
def otpRegion (reg : Nat) : OtpRegion :=
  match reg with
  | 0 => ⟨List.range 6, 6, 7⟩
  | 1 => ⟨(List.range 8).map (· + 32), 40, 41⟩
  | 2 => ⟨[42, 43, 44, 45], 46, 47⟩
  | r => ⟨(List.range 14).map (· + (64 + 16 * (r - 3))), 78 + 16 * (r - 3), 79 + 16 * (r - 3)⟩

/-- Words that R323 reserves: they read 0 and are never programmed. -/
def otpReserved (w : Nat) : Bool := (43 ≤ w && w ≤ 45) || (48 ≤ w && w ≤ 63)

/-- REG of the region whose lock word locks a word (R326). -/
def otpRegionOf (w : Nat) : Nat :=
  if w < 32 then 0 else if w < 42 then 1 else if w < 64 then 2 else 3 + (w - 64) / 16

/-- A lock word. -/
def otpLockWord (w : Nat) : Bool := w = (otpRegion (otpRegionOf w)).lockWord

namespace Otp

/-- A word of the array as it is read; a reserved word holds nothing. -/
def word (o : Otp) (w : Nat) : OtpWord := if otpReserved w then {} else (elem? o.array w).getD {}

/-- The seal computed over a region's data, marginal bits at their tight-reference value (R329). -/
def sealOf (o : Otp) (r : OtpRegion) : Word := crc32 (r.data.flatMap fun w => leBytes 4 (o.word w).tight.toNat)

/-- The stored seal matches. -/
def sealMatches (o : Otp) (r : OtpRegion) : Bool := o.sealOf r == (o.word r.sealWord).tight

/-- A data or seal bit of the region is marginal. -/
def regionMarginal (o : Otp) (r : OtpRegion) : Bool := (r.sealWord :: r.data).any fun w => (o.word w).marginal != 0

/-- The region state of R330: 0 Open, 1 Sealed, 2 Weak, 3 Failed. A marginal LOCK bit reads 1. -/
def judgeRegion (o : Otp) (reg : Nat) : Nat :=
  let r := otpRegion reg
  if !(o.word r.lockWord).loose.getLsbD 0 then 0
  else if o.regionMarginal r then 2
  else if o.sealMatches r then 1 else 3

/-- Fields of the region are used as read. -/
def asRead (o : Otp) (reg : Nat) : Bool := o.judgeRegion reg ≤ 1

/-! ## The variant (R328) -/

/-- VARIANT and its complement are right, reading marginal bits as 0. -/
def variantCodeOk (o : Otp) : Bool :=
  let v := fld (o.word 1).tight 0 8
  (v = 1 || v = 2 || v = 4) && fld (o.word 1).tight 8 8 = 0xFF - v

/-- The integrity check of R328. -/
def variantOk (o : Otp) : Bool := o.variantCodeOk && (o.word 1).marginal == 0 && o.judgeRegion 0 = 1

/-- The variant in force; a PLN-112 where the check fails. -/
def variantOf (o : Otp) : Variant :=
  if o.variantOk then
    match fld (o.word 1).tight 0 8 with
    | 4 => .p448
    | 2 => .p224
    | _ => .p112
  else .p112

/-- The check fails from marginal bits only: the factory region is Weak and nothing else is wrong with the variant word. -/
def variantMarginalOnly (o : Otp) : Bool := o.judgeRegion 0 = 2 && ((o.word 1).marginal != 0 || o.variantCodeOk)

/-! ## Values in force (R327, R330) -/

/-- The value in force of a word. `trim`: the built-in nominal trims. -/
def valueOf (o : Otp) (trim : Fin 3 → Word) (w : Nat) : Word :=
  let x := o.word w
  if w = 1 then (if o.variantOk then x.tight else 0xFE01)
  else if w = 3 then (if o.asRead 0 && x.marginal = 0 then x.tight else trim 0)
  else if w = 4 then (if o.asRead 0 && x.marginal = 0 then x.tight else trim 1)
  else if w = 5 then (if o.asRead 0 && x.marginal = 0 then x.tight else trim 2)
  else if w = 42 then (if o.asRead 2 then x.tight ||| (x.marginal &&& 2) else 2)
  else if otpLockWord w then x.tight ||| (x.marginal &&& 1)
  else x.tight

/-- The device key where its region is Sealed. -/
def deviceKey (o : Otp) : Option (BitVec 256) :=
  if o.judgeRegion 1 = 1 then
    some (BitVec.ofNat 256 (leNat (((List.range 8).map (· + 32)).flatMap fun w => leBytes 4 (o.word w).tight.toNat)))
  else none

/-- The controller after the boot reads (R324). -/
def bootRead (o : Otp) (trim : Fin 3 → Word) : Otp :=
  let all := List.range 128
  { o with
      force := Vector.ofFn fun i => o.valueOf trim i.val
      marginal := Vector.ofFn fun i => (o.word i.val).marginal
      regions := Vector.ofFn fun i => o.judgeRegion i.val
      weak := min 0xFFFF ((all.map fun w => (o.word w).weakCopies).foldl (· + ·) 0)
      marginalBits := min 0xFFFF ((all.map fun w => countOnes (o.word w).marginal).foldl (· + ·) 0)
      keyLatch := o.deviceKey }

end Otp

namespace State

/-- The sources of the boot reads: 0x61 for each word with a marginal bit (R325), 0x62 for each Failed region, naming its lock word
(R330), and that of a variant fallback (R328), naming word 1. -/
def raiseOtpSources (s : State) : State :=
  let o := s.otp
  let s1 := ((List.range 128).filter fun w => (o.word w).marginal != 0).foldl (fun t w => t.raise .management 0x61 10 w) s
  let s2 := ((List.range 7).filter fun r => o.judgeRegion r = 3).foldl
    (fun t r => t.raise .management 0x62 10 (otpRegion r).lockWord) s1
  s2.raiseIf (!o.variantOk) .management (if o.variantMarginalOnly then 0x61 else 0x62) 10 1

/-- The boot reads (R324 to R330): at power-on, at every chip reset, and at exit step C. -/
def bootReads (s : State) : State :=
  ((s.onOtp fun o => o.bootRead Config.nominalTrim).onSys fun y =>
    { y with variant := s.otp.variantOf, fallback := !s.otp.variantOk }).raiseOtpSources

end State

/-! ## Programming (R331 to R334) -/

/-- One copy of a word's bit takes what its cell reads after a pulse; a cell only gains charge. -/
def OtpWord.pulse (copyB : Bool) (bit : Nat) (tight loose : Bool) (w : OtpWord) : OtpWord :=
  let t : Word := if tight then 1#32 <<< bit else 0
  let l : Word := if tight || loose then 1#32 <<< bit else 0
  if copyB then { w with bTight := w.bTight ||| t, bLoose := w.bLoose ||| l }
  else { w with aTight := w.aTight ||| t, aLoose := w.aLoose ||| l }

namespace Otp

/-- A bit no operation may program: of a reserved word, or a reserved bit of a lock word or of word 42. -/
def bitReserved (w bit : Nat) : Bool := otpReserved w || (otpLockWord w && bit != 0) || (w = 42 && 3 ≤ bit)

/-- The region of a word is locked and the bit is not a repair (R331). -/
def lockedOut (o : Otp) (w bit : Nat) : Bool :=
  (o.word (otpRegion (otpRegionOf w)).lockWord).tight.getLsbD 0 && !(o.word w).loose.getLsbD bit

/-- A LOCK bit whose region does not verify (R331). -/
def unverified (o : Otp) (w : Nat) : Bool :=
  let r := otpRegion (otpRegionOf w)
  otpLockWord w && (o.regionMarginal r || !o.sealMatches r)

/-- The copy whose bit reads 0 under the tight reference, A first. -/
def nextCopy (o : Otp) (w bit : Nat) : Option Bool :=
  let x := (elem? o.array w).getD {}
  if !x.aTight.getLsbD bit then some false else if !x.bTight.getLsbD bit then some true else none

/-- The operation has ended: DONE, and FAIL unless both copies read 1 (R333). -/
def finish (w bit : Nat) (o : Otp) : Otp :=
  { o with op := none, done := true, fail := o.fail || (o.nextCopy w bit).isSome }

/-- A pulse and its verify complete: a further pulse for a copy that fails its first or second, then copy B, then the end. -/
def afterPulse (op : OtpOp) (tight loose : Bool) (o : Otp) : Otp :=
  let o1 := { o with array := updNat o.array op.word (OtpWord.pulse op.copyB op.bit tight loose) }
  if !tight && op.pulses + 1 < 3 then { o1 with op := some { op with pulses := op.pulses + 1 } }
  else if !op.copyB && !((elem? o1.array op.word).getD {}).bTight.getLsbD op.bit then
    { o1 with op := some { op with copyB := true, pulses := 0 } }
  else o1.finish op.word op.bit

/-- The pulse in progress ends early: what its cell then reads is undetermined (log entry 8). -/
def cutPulse (cell : Bool × Bool) (o : Otp) : Otp :=
  match o.op with
  | some op => { o with op := none, array := updNat o.array op.word (OtpWord.pulse op.copyB op.bit cell.1 cell.2) }
  | none => o

/-- REASON of an abort (R334). -/
def abortReason : OtpAbortCause → Nat
  | .supplyWarning => 0x20
  | .otpokLost => 0x21
  | .vinRange => 0x22

end Otp

namespace State

/-- The first refusal of R332 that applies, on the word and bit OTP_PROG holds; 0 for none. -/
def otpRefusal (s : State) : Nat :=
  let o := s.otp
  let w := o.progWord
  if o.op.isSome then 1
  else if o.punlock != 0x50524F47 then 2
  else if Otp.bitReserved w o.progBit then 3
  else if o.lockedOut w o.progBit then 4
  else if (o.word w).tight.getLsbD o.progBit then 5
  else if o.unverified w then 6
  else if !s.thm.otpok then 7
  else if s.env.vin < 3000 || 5500 < s.env.vin then 8
  else if !o.progSrc && (s.env.vpp < 2375 || 2625 < s.env.vpp) then 9
  else if 2 ≤ s.ladder.rung || s.ladder.phase != .idle then 0x0A
  else if s.sys.warn then 0x0B else 0

/-- An OTP_PROG write with GO = 1 (R332, R333): OTP_PUNLOCK clears either way. -/
def startOtp (s : State) : State :=
  let why := s.otpRefusal
  s.onOtp fun o =>
    if why = 0 then
      { o with punlock := 0, op := some { word := o.progWord, bit := o.progBit, copyB := (o.nextCopy o.progWord o.progBit).getD false
                                          pulses := 0 } }
    else { o with punlock := 0, reason := why, cerr := true, done := true }

/-- An operation in progress is aborted (R334). -/
def abortOtp (cause : OtpAbortCause) (s : State) : State :=
  if s.otp.op.isSome then
    (s.onOtp fun o =>
      { o.cutPulse (Config.abortedCell s.free) with aborted := true, done := true, reason := Otp.abortReason cause }).bumpFree
  else s

/-- A chip reset during a pulse ends the pulse (R334). -/
def dropOtp (s : State) : State :=
  if s.otp.op.isSome then (s.onOtp fun o => o.cutPulse (Config.abortedCell s.free)).bumpFree else s

end State

end Sys2Proof.Machine
end

