-- ==== Sys2Proof/Machine/ThermalOps.lean ====
section
/-!
DEFINITION. Shared operations of thermal management and calibration (R290 to R308): calibration sets, conversion of counts, the median
of neighbours, the model, the die levels, the gain and offset of a converter. A temperature is in 1/65536 °C (log entry 31).
-/

namespace Sys2Proof.Machine

/-- A temperature of whole degrees. -/
def degrees (n : Int) : Int := n * 65536

/-- A temperature in 1/16 °C, as registers show it. -/
def sixteenths (t : Int) : Nat := twos 16 (t / 4096)

/-! ## Calibration sets (R301 to R303) -/

/-- Word `k` of a set. -/
def setWord (w : Vector Word 8) (k : Nat) : Word := (elem? w k).getD 0

/-- CHECK over the 28 bytes of W0 to W6. -/
def setCheck (w : Vector Word 8) : Word := crc32 ((List.range 7).flatMap fun k => leBytes 4 (setWord w k).toNat)

/-- A set is valid (R302), where `kind` is that of the place it lies in. -/
def setValid (kind : Nat) (w : Vector Word 8) : Bool :=
  let tset := signed 8 (fld (setWord w 0) 0 8)
  fld (setWord w 0) 8 8 = kind && -40 ≤ tset && tset ≤ 125 && fld (setWord w 4) 16 16 = 0 && setWord w 5 = 0 && setWord w 6 = 0 &&
    setWord w 7 = setCheck w

/-- The fields of a set. -/
def setFields (w : Vector Word 8) : CalSet :=
  { tset := signed 8 (fld (setWord w 0) 0 8), vrefd := signed 16 (fld (setWord w 0) 16 16)
    counts := (List.range 7).map fun i => fld (setWord w (1 + i / 2)) (16 * (i % 2)) 16 }

/-- Factory set `f`: OTP words 8 + 8f to 15 + 8f. -/
def Otp.factorySet (o : Otp) (f : Nat) : Vector Word 8 := Vector.ofFn fun i => (elem? o.force (8 + 8 * f + i.val)).getD 0

/-- Factory set `f` is valid: no bit of it is marginal (R302). -/
def Otp.factoryValid (o : Otp) (f : Nat) : Bool :=
  setValid 1 (o.factorySet f) && (List.range 8).all fun i => (elem? o.marginal (8 + 8 * f + i)).getD 0 == 0

/-- A set put among sets in rising TSET order, in the place of one with an equal TSET. -/
def insertSet (x : CalSet) : List CalSet → List CalSet
  | [] => [x]
  | y :: rest => if x.tset < y.tset then x :: y :: rest else if x.tset = y.tset then x :: rest else y :: insertSet x rest

/-- The sets in force (R302): among equal TSETs a field set replaces a factory set, and the field set with the higher index the
others. -/
def State.setsInForce (s : State) : List CalSet :=
  let factory := (List.range 3).foldl (fun l f => if s.otp.factoryValid f then insertSet (setFields (s.otp.factorySet f)) l else l) []
  s.cal.fieldSets.toList.foldl (fun l w => if setValid 2 w then insertSet (setFields w) l else l) factory

/-- VREFD at a temperature (R303), rounded to a whole µV: between the two sets that bracket it, or the nearest end's. -/
def interpolateVrefd (t : Int) : List CalSet → Int
  | [] => 0
  | [a] => a.vrefd
  | a :: b :: rest =>
    if t ≤ degrees a.tset then a.vrefd
    else if t ≤ degrees b.tset then
      a.vrefd + divNearest ((b.vrefd - a.vrefd) * (t - degrees a.tset)) (degrees (b.tset - a.tset)).toNat
    else interpolateVrefd t (b :: rest)

/-! ## Sensors (R291, R303) -/

/-- The points of sensor `i`: TSET and N_i of the sets in force that give it. -/
def sensorPoints (sets : List CalSet) (i : Nat) : List (Int × Int) :=
  (sets.filter fun x => x.counts.getD i 0 != 0).map fun x => (x.tset, ((x.counts.getD i 0 : Nat) : Int))

def risingCounts : List (Int × Int) → Bool
  | a :: b :: rest => a.2 < b.2 && risingCounts (b :: rest)
  | _ => true

def fallingCounts : List (Int × Int) → Bool
  | a :: b :: rest => b.2 < a.2 && fallingCounts (b :: rest)
  | _ => true

/-- The line through two points at a count, rounded down to 1/65536 °C. -/
def onSegment (a b : Int × Int) (count : Int) : Int :=
  let dn := b.2 - a.2
  if 0 < dn then degrees a.1 + degrees (b.1 - a.1) * (count - a.2) / dn else degrees a.1 + degrees (b.1 - a.1) * (a.2 - count) / (-dn)

/-- The temperature of a count over the points, by the segment it lies in, or the end segment beyond the points. -/
def convertCount (count : Int) : List (Int × Int) → Int
  | a :: b :: rest =>
    if rest.isEmpty || (if a.2 < b.2 then count ≤ b.2 else b.2 ≤ count) then onSegment a b count
    else convertCount count (b :: rest)
  | _ => 0

/-- The reading of a sensor, where it has two points and its counts change strictly in one direction. -/
def sensorReading (sets : List CalSet) (i : Nat) (count : BitVec 16) : Option Int :=
  let p := sensorPoints sets i
  if 2 ≤ p.length && (risingCounts p || fallingCounts p) then some (convertCount (count.toNat : Int) p) else none

/-- A list of temperatures in rising order. -/
def insertInt (x : Int) : List Int → List Int
  | [] => [x]
  | y :: rest => if x ≤ y then x :: y :: rest else y :: insertInt x rest

/-- The median; of an even number, the mean of the two middle ones. -/
def median (l : List Int) : Int :=
  let s := l.foldr insertInt []
  let n := s.length
  if n % 2 = 1 then s.getD (n / 2) 0 else (s.getD (n / 2 - 1) 0 + s.getD (n / 2) 0) / 2

/-- Neighbours of a zone (R290), RO6 apart. -/
def neighbours (z : Nat) : List Nat :=
  match z with
  | 0 => [1, 4]
  | 1 => [0, 2]
  | 2 => [1, 3, 5]
  | 3 => [2, 5]
  | 4 => [0, 5]
  | _ => [2, 3, 4]

/-- A plausible reading (R292): in range, within 5 °C of the reading 1 ms earlier where there is one, and within 8 °C of the median. -/
def plausible (reading : Option Int) (history : List Int) (mid : Int) : Bool :=
  match reading with
  | none => false
  | some t =>
    degrees (-60) ≤ t && t ≤ degrees 150 && (t - mid).natAbs ≤ 8 * 65536 &&
      match history[9]? with
      | some old => (t - old).natAbs ≤ 5 * 65536
      | none => true

/-! ## The model (R295) -/

/-- T_m of a zone. -/
def Thm.modelOf (t : Thm) (z : Nat) : Int :=
  let k := (elem? t.zones z).getD {}
  t.ta + (k.rise1 + k.rise2 + t.rise3) / 0x100000000

/-- One millisecond of a pole: ΔT moves by (P·R − ΔT)·factor, the factor in 2^-48. -/
def poleStep (rise target factor : Int) : Int := rise + (target - rise) * factor / 0x1000000000000

/-- P·R in 2^-48 °C, P in mW and R in 0.01 °C/W. -/
def poleTarget (milliwatts r : Nat) : Int := (milliwatts * r * 0x1000000000000 / 100000 : Nat)

/-- 1 − e^(−1 ms/2 ms) and 1 − e^(−1 ms/40 ms) in 2^-48. -/
def pole1Factor : Int := 110751773393744
def pole2Factor : Int := 6949641936809

/-- 1 − e^(−1 ms/τ) of pole 3 in 2^-48, by its series to the third term; τ = TAU3 × 0.1 s. -/
def pole3Factor (tau3 : Nat) : Int :=
  if tau3 = 0 then (Config.poleWithoutTau : Int)
  else
    let d := 100 * tau3
    ((0x1000000000000 * (6 * d * d - 3 * d + 1) / (6 * d * d * d) : Nat) : Int)

/-- P_z (R295): the share of the zone's activity. -/
def zonePower (milliwatts : Nat) (activity : Vector Nat 6) (z : Nat) : Nat :=
  let sum := activity.toList.foldl (· + ·) 0
  if sum = 0 then Config.idlePower milliwatts z else milliwatts * (elem? activity z).getD 0 / sum

/-- Every pole advances by a millisecond. -/
def Thm.advancePoles (milliwatts : Nat) (activity : Vector Nat 6) (t : Thm) : Thm :=
  { t with
      milliwatts := min 0xFFFF milliwatts
      zones := mapIdx (fun z k =>
        { k with rise1 := poleStep k.rise1 (poleTarget (zonePower milliwatts activity z) 100) pole1Factor
                 rise2 := poleStep k.rise2 (poleTarget (zonePower milliwatts activity z) 200) pole2Factor }) t.zones
      rise3 := poleStep t.rise3 (poleTarget milliwatts t.r3) (pole3Factor t.tau3) }

/-- The mean of a list, rounded down. -/
def meanInt (l : List Int) : Int := l.foldl (· + ·) 0 / l.length

/-- T_a follows the sensors (R296). -/
def Thm.trackAmbient (t : Thm) : Thm :=
  let l := (List.range 6).filterMap fun z =>
    (elem? t.zones z).bind fun k => if k.onModel then none else some (k.reading - t.modelOf z)
  if l.isEmpty then t else { t with ta := t.ta + meanInt l / 64 }

/-- T_cal: the mean of the six published temperatures. -/
def Thm.tcal (t : Thm) : Int := meanInt (t.zones.toList.map (·.published))

/-- Every ΔT at 0, T_a at 85 °C, every zone on the model (R297). -/
def Thm.assume (t : Thm) : Thm :=
  { t with ta := degrees 85, taAssumed := true, rise3 := 0, check := none, otpok := false
           zones := t.zones.map fun _ => {}, ro6History := [], spareBad := false, tdie := degrees 85 }

/-- Exit from L4 or L5 (R293, R297): T_a kept, every ΔT 0, no slope test on the first readings. -/
def Thm.resume (t : Thm) : Thm :=
  { t with rise3 := 0, check := none, ro6History := []
           zones := t.zones.map fun k => { k with rise1 := 0, rise2 := 0, history := [] } }

/-! ## Converters (R305, R307) -/

/-- Offset and gain from the measured zero and reference on a scale of `full` codes, where R307 accepts them. -/
def calResult (vrefd : Int) (full rzero rref : Nat) : Option (Nat × Nat) :=
  if rref ≤ rzero || 4096 < rzero then none
  else
    let g := (divNearest (32768 * (1200000 + vrefd) * full) (1800000 * (rref - rzero))).toNat
    if 29491 ≤ g && g ≤ 36045 then some (rzero, g) else none

/-- A converter takes a result, or keeps its values. -/
def CalCh.take (result : Option (Nat × Nat)) (tcal : Int) (c : CalCh) : CalCh :=
  match result with
  | some x => { c with ofs := x.1, gain := x.2, tlast := tcal, done := true, subst := false }
  | none => { c with subst := false }

namespace State

/-- Every disarmed present port's sense converter is calibrated, and publishes nothing for 30 µs (R308). -/
def calibrateSense (s : State) : State :=
  portNumbers.foldl (fun t p =>
    if t.hasPort p && !(t.port p).arm.armed then
      let m := Config.senseCodes p.val t.free
      (t.onCal fun c => { c with sense := upd c.sense p (CalCh.take (calResult c.vrefd 4095 m.1.toNat m.2.toNat) c.tcal),
                                 senseAt := upd c.senseAt p fun _ => some t.times.fab }).bumpFree
    else t) s

/-- A round in progress ends (R307): delivery returns to the channel being calibrated, with its previous values. -/
def endRound (s : State) : State :=
  s.onCal fun c => { c with channel := none, chans := c.chans.map fun k => { k with subst := false } }

/-! ## Evaluation (R291 to R300) -/

end State

/-- The temperatures that zones have published last (R291); until its first plausible reading a zone publishes its model temperature
(R297). -/
def Thm.publishedOf (t : Thm) (l : List Nat) : List Int := l.map fun z => ((elem? t.zones z).getD {}).published

/-- The median of the published temperatures of a zone's neighbours, RO6 among them with its reading unless it is bad (R290, R292; log entry
33). -/
def Thm.zoneMedian (now : Nat → Option Int) (t : Thm) (z : Nat) : Int :=
  median (t.publishedOf (neighbours z) ++ (if t.spareBad then [] else (now 6).toList))

/-- What one evaluation finds of a zone: its reading, whether it is plausible. -/
structure ZoneFinding where
  reading : Option Int
  ok : Bool
  deriving DecidableEq, Repr, Inhabited

/-- The finding of an evaluation for zone `z`. -/
def Thm.finding (now : Nat → Option Int) (t : Thm) (z : Nat) : ZoneFinding :=
  let k := (elem? t.zones z).getD {}
  let r := now z
  { reading := r, ok := plausible r k.history (t.zoneMedian now z) }

/-- The zone with a new count and reading. -/
def Zone.see (count : BitVec 16) (f : ZoneFinding) (k : Zone) : Zone :=
  let r := f.reading.getD k.reading
  { k with count := count.toNat, reading := r, history := (r :: k.history).take 10 }

/-- The zone after its finding (R292, R293, R297): a plausible first reading takes it to its sensor; on the sensor an implausible one
takes it to the model; on the model 1000 plausible ones near the model take it back. -/
def Zone.judge (force : Bool) (model : Int) (f : ZoneFinding) (k : Zone) : Zone :=
  if !f.ok then { k with onModel := true, plausible := 0 }
  else if k.fresh then { k with fresh := false, onModel := force, plausible := 0 }
  else if k.onModel then
    let n := if (k.reading - model).natAbs ≤ 8 * 65536 then min 1000 (k.plausible + 1) else 0
    if n = 1000 && !force then { k with onModel := false, plausible := 0 } else { k with plausible := n }
  else { k with onModel := force }

/-- The zone returns to its sensor at this evaluation, other than by its first plausible reading (R293). -/
def Zone.returns (before after : Zone) : Bool := before.onModel && !after.onModel && !before.fresh

/-- An implausible reading that raises 0x06: the zone leaves its sensor, and is not forced. -/
def Zone.leaves (before after : Zone) (force : Bool) : Bool := !before.onModel && after.onModel && !force

end Sys2Proof.Machine
end

