-- ==== Sys2Proof/Machine/LineCode.lean ====
section
/-!
DEFINITION. The 8b/10b code of IEEE 802.3 clause 36, which R224 names: the code groups, running disparity, and a byte string as it crosses a
pair. A code group is written with its first bit on the line as bit 0. A running disparity is `true` where it is positive.
-/

namespace Sys2Proof.Machine

/-- Bits of a word in the order they are written, the first one bit 0. -/
def lineBits (l : List Nat) : Nat := l.foldr (fun b n => b + 2 * n) 0

/-- The six-bit sub-blocks abcdei of D0 to D31 at negative running disparity. -/
def sixBits : List Nat := [
  lineBits [1,0,0,1,1,1], lineBits [0,1,1,1,0,1], lineBits [1,0,1,1,0,1], lineBits [1,1,0,0,0,1],
  lineBits [1,1,0,1,0,1], lineBits [1,0,1,0,0,1], lineBits [0,1,1,0,0,1], lineBits [1,1,1,0,0,0],
  lineBits [1,1,1,0,0,1], lineBits [1,0,0,1,0,1], lineBits [0,1,0,1,0,1], lineBits [1,1,0,1,0,0],
  lineBits [0,0,1,1,0,1], lineBits [1,0,1,1,0,0], lineBits [0,1,1,1,0,0], lineBits [0,1,0,1,1,1],
  lineBits [0,1,1,0,1,1], lineBits [1,0,0,0,1,1], lineBits [0,1,0,0,1,1], lineBits [1,1,0,0,1,0],
  lineBits [0,0,1,0,1,1], lineBits [1,0,1,0,1,0], lineBits [0,1,1,0,1,0], lineBits [1,1,1,0,1,0],
  lineBits [1,1,0,0,1,1], lineBits [1,0,0,1,1,0], lineBits [0,1,0,1,1,0], lineBits [1,1,0,1,1,0],
  lineBits [0,0,1,1,1,0], lineBits [1,0,1,1,1,0], lineBits [0,1,1,1,1,0], lineBits [1,0,1,0,1,1]]

/-- The four-bit sub-blocks fghj of Dx.0 to Dx.7 at negative running disparity, the primary one of Dx.7. -/
def fourBits : List Nat := [
  lineBits [1,0,1,1], lineBits [1,0,0,1], lineBits [0,1,0,1], lineBits [1,1,0,0],
  lineBits [1,1,0,1], lineBits [1,0,1,0], lineBits [0,1,1,0], lineBits [1,1,1,0]]

/-- Ones among the low `width` bits. -/
def ones (width n : Nat) : Nat := (List.range width).foldl (fun k i => k + (n.testBit i).toNat) 0

/-- The six-bit sub-block of the low five bits `x` of a byte, and the disparity after it. D7 changes with the disparity and leaves it. -/
def code6 (rd : Bool) (x : Nat) : Nat × Bool :=
  let c := sixBits.getD x 0
  let even := ones 6 c = 3
  (if rd && (!even || x = 7) then 63 - c else c, rd != !even)

/-- The four-bit sub-block of the high three bits `y` after the low five bits `x`. Dx.7 has an alternate where the primary would make a run of
five; Dx.3 changes with the disparity and leaves it. -/
def code4 (rd : Bool) (x y : Nat) : Nat × Bool :=
  let other := y = 7 && (if rd then x = 11 || x = 13 || x = 14 else x = 17 || x = 18 || x = 20)
  let c := if other then lineBits [0,1,1,1] else fourBits.getD y 0
  let even := ones 4 c = 2
  (if rd && (!even || y = 3) then 15 - c else c, rd != !even)

/-- A data byte's code group and the disparity after it. -/
def codeGroup (rd : Bool) (b : Nat) : BitVec 10 × Bool :=
  let lo := code6 rd (b % 32)
  let hi := code4 lo.2 (b % 32) (b / 32 % 8)
  (BitVec.ofNat 10 (lo.1 + 64 * hi.1), hi.2)

/-- The byte of a received code group, where it is one of the running disparity's. -/
def groupByte (rd : Bool) (g : BitVec 10) : Option Nat :=
  ((List.range 32).find? fun x => (code6 rd x).1 = g.toNat % 64).bind fun x =>
    ((List.range 8).find? fun y => (code4 (code6 rd x).2 x y).1 = g.toNat / 64).map fun y => x + 32 * y

/-- The disparity after any ten bits: the sign of their excess, or as before. -/
def afterGroup (rd : Bool) (g : BitVec 10) : Bool :=
  let n := ones 10 g.toNat
  if n = 5 then rd else 5 < n

/-- The code groups of a byte string, and the disparity after it. -/
def codeGroups (rd : Bool) : List Nat → List (BitVec 10) × Bool
  | [] => ([], rd)
  | b :: rest => let g := codeGroup rd b; let r := codeGroups g.2 rest; (g.1 :: r.1, r.2)

/-- The bytes of received code groups, none where a group is not valid. -/
def groupBytes (rd : Bool) : List (BitVec 10) → List (Option Nat)
  | [] => []
  | g :: rest => groupByte rd g :: groupBytes (afterGroup rd g) rest

/-- SYNC, K28.5, has six bits of one value in excess: it turns the disparity. -/
def afterSync (rd : Bool) : Bool := !rd

/-- A byte string as it arrives with the line bits of `flips` inverted, ten to a byte: what each byte reads as. -/
def received (rd : Bool) (bytes : List Nat) (flips : Nat) : List (Option Nat) :=
  let sent := (codeGroups rd bytes).1
  groupBytes rd (sent.zipIdx.map fun x => x.1 ^^^ BitVec.ofNat 10 (flips / 1024 ^ x.2))

end Sys2Proof.Machine
end

