-- ==== Sys2Proof/Machine/Links.lean ====
section
/-!
DEFINITION. The commands of the inter-plane message links (R17 to R19) and of fault injection on them (R241, R242).
-/

namespace Sys2Proof.Machine

/-! ## Receiving and replaying -/

/-- What the receiver finds in a message (R18). -/
inductive LinkCheck where
  | accepted | crcWrong | ahead | behind
  deriving DecidableEq, Repr

/-- R18: the CRC, then SEQ against the expected value, modulo 256. -/
def LinkDir.check (l : LinkDir) (m : BitVec 96) : LinkCheck :=
  if !msgCrcOk m then .crcWrong
  else
    let d := (msgSeq m - l.expected).toNat
    if d = 0 then .accepted else if d ≤ 127 then .ahead else .behind

/-- The wire after a message has arrived: without it, or, where noise changed it, without its oldest. -/
def LinkDir.takeWire (l : LinkDir) (m : BitVec 96) : List (BitVec 96) :=
  if l.wire.contains m then l.wire.erase m else l.wire.drop 1

/-- Device time an accepted message on a link to the management plane carries (R24, R314): a heartbeat's own, or that of the report whose
message it is. -/
def LinkDir.carriedTime (d : Nat) (m : BitVec 96) (l : LinkDir) : Time48 :=
  if d = 2 || d = 4 then
    if msgType m == typeReport then
      ((l.reports[(l.accepted.filter fun x => msgType x == typeReport).length]?).map (·.time)).getD l.lastTime
    else if listedTypes.contains (msgType m) then l.lastTime
    else (msgPayload m).setWidth 48
  else l.lastTime

/-- The direction after a message has arrived (R18): an accepted one moves the expected value on and ends a replay it completes;
one with a wrong CRC or ahead asks for a replay from the expected value; one behind is dropped. -/
def LinkDir.receive (d : Nat) (now : Time48) (m : BitVec 96) (l : LinkDir) : LinkDir :=
  let l1 := { l with wire := l.takeWire m, heard := now }
  match l.check m with
  | .accepted =>
    { l1 with expected := l.expected + 1, accepted := l.accepted ++ [m], request := none
              replays := l.replays.filter fun x => x.1 != l.expected
              replayFrom := if l.expected + 1 = l.next then none else l.replayFrom
              lastTime := l.carriedTime d m }
  | .crcWrong => { l1 with request := some l.expected }
  | .ahead => { l1 with request := some l.expected }
  | .behind => l1

/-- The source a finding raises (R18). -/
def LinkCheck.source : LinkCheck → Option Nat
  | .accepted => none
  | .crcWrong => some 0x50
  | .ahead => some 0x51
  | .behind => some 0x52

/-- LINK_MESSAGE_RECEIVE (R18), while both ends run. -/
def execLinkMessageReceive (dir : Fin 6) (msg : BitVec 96) (s : State) : Res :=
  let c := s.links.dirs[dir.val].check msg
  .next (if s.clocked then
    let s1 := s.onLinks fun l => { l with dirs := upd l.dirs dir (LinkDir.receive dir.val s.times.dev msg) }
    match c.source with
    | some x => s1.raise (dirReceiver dir) x 7 dir.val
    | none => s1
  else s)

/-- The SEQ a replay starts from: a request during a running replay restarts it from the lower number (R18), the one further
behind the next message. -/
def LinkDir.replayStart (l : LinkDir) (seq : BitVec 8) : BitVec 8 :=
  match l.replayFrom with
  | some r => if (l.next - seq).toNat < (l.next - r).toNat then r else seq
  | none => seq

/-- One more replay of a message is counted (R19). -/
def countReplay (seq : BitVec 8) (l : List (BitVec 8 × Nat)) : List (BitVec 8 × Nat) :=
  if l.any fun x => x.1 = seq then l.map fun x => if x.1 = seq then (x.1, x.2 + 1) else x else l ++ [(seq, 1)]

/-- The kept messages from a SEQ onward, in order. -/
def LinkDir.keptFrom (l : LinkDir) (start : BitVec 8) : List (BitVec 96) :=
  l.buffer.filter fun m => (msgSeq m - start).toNat < (l.next - start).toNat

/-- The sender resends, in order, every message from the start onward (R18). A restarted replay takes the place of what is left of
the running one on the wire (log entry 16). -/
def LinkDir.replay (now : Time48) (seq : BitVec 8) (l : LinkDir) : LinkDir :=
  let start := l.replayStart seq
  let again := l.keptFrom start
  let wire := if l.replayFrom.isSome then l.wire.filter fun m => !((msgSeq m - start).toNat < (l.next - start).toNat) else l.wire
  { l with wire := wire ++ again, replayFrom := some start, sentAt := now
           replays := again.foldl (fun r m => countReplay (msgSeq m) r) l.replays }

/-- A message has been replayed 8 times, its last copy has left the wire and it has not been accepted (R19). -/
def LinkDir.exhausted (l : LinkDir) : Bool :=
  l.replays.any fun x => 8 ≤ x.2 && !(l.wire.any fun m => msgSeq m = x.1)

/-- The receiver has seen no message for 4 µs, 192 counts of the device time (R19). -/
def LinkDir.silent (now : Time48) (l : LinkDir) : Bool := 192 ≤ since now l.heard

/-- The sender has had nothing else to send for 1 µs, 48 counts of the device time (R19). -/
def LinkDir.resting (now : Time48) (l : LinkDir) : Bool := 48 ≤ since now l.sentAt

namespace State

/-- The link is declared failed (R19). -/
def failLink (dir : Fin 6) (s : State) : State :=
  (s.onLinks fun l => { l with dirs := upd l.dirs dir fun x => { x with failed := true } }).raise (dirReceiver dir) 0x08 7 dir.val

end State

/-- REPLAY_REQUEST (R18): a further request for a message replayed 8 times declares the link failed (R19). -/
def execReplayRequest (dir : Fin 6) (seq : BitVec 8) (s : State) : Res :=
  .next (if s.clocked then
    let l := s.links.dirs[dir.val]
    if l.exhausted && !l.failed then s.failLink dir
    else s.onLinks fun k => { k with dirs := upd k.dirs dir (LinkDir.replay s.times.dev seq) }
  else s)

/-- HEARTBEAT_MESSAGE (R19), once the sender has rested for 1 µs. -/
def execHeartbeatMessage (dir : Fin 6) (s : State) : Res :=
  .next (if s.clocked && s.links.dirs[dir.val].resting s.times.dev then s.onLinks (Links.heartbeat s.times.dev dir) else s)

/-- LINK_FAILED (R19): after 8 unaccepted replays, or 4 µs without a message, on a watched direction. -/
def execLinkFailed (dir : Fin 6) (s : State) : Res :=
  let l := s.links.dirs[dir.val]
  .next (if s.clocked && !l.failed && (l.exhausted || l.silent s.times.dev) then s.failLink dir else s)

/-! ## Injection -/

/-- An injection on a link ends (R241); a message held back then follows. -/
def Links.stopInjection (l : Links) : Links :=
  match l.inj.held, fin? 6 l.inj.sel with
  | some h, some d => { dirs := upd l.dirs d fun x => { x with wire := x.wire ++ [h.1.setWidth 96] }, inj := l.inj.stop }
  | _, _ => { l with inj := l.inj.stop }

namespace State

/-- INJ_PERMIT of the OTP policy in force (R327). -/
def injPermitted (s : State) : Bool := (elem? s.otp.force 42).any fun w => w.getLsbD 2

/-- The conditions of R241 for a GO. -/
def mayInject (s : State) : Bool :=
  s.injPermitted && s.sys.permit && !(portNumbers.any fun p => (s.port p).arm.armed && !(s.port p).arm.dryrun)

/-- Every injection ends at once (R241). -/
def stopInjections (s : State) : State :=
  (s.onLinks Links.stopInjection).onTlks fun v => v.map fun t => { t with inj := t.inj.stop }

/-- GO of MGT_LINJCTRL is accepted: a corrupt pattern must be one the CRC detects (R242), the direction one of the six. -/
def linkInjectionOk (s : State) : Bool :=
  s.mayInject && s.links.inj.sel < 6 && (s.links.inj.kind != 2 || s.links.inj.linkPatternOk)

end State

/-- GO of MGT_LINJCTRL (R241): it ends at once in the safe state. -/
def State.startLinkInjection (s : State) : State :=
  (s.onLinks fun l =>
    if s.linkInjectionOk then
      { l.stopInjection with inj := if s.flt.safe then l.inj.start.stop else l.inj.start }
    else { l with inj := { l.inj with cerr := true } }).raiseIf
    s.linkInjectionOk .management 0x54 7 s.links.inj.sel

/-- LINK_INJECTION_GO (R241). -/
def execLinkInjectionGo (s : State) : Res := .next (s.mgmtWrite State.startLinkInjection)

/-- LINK_INJECTION_STOP (R241). -/
def execLinkInjectionStop (s : State) : Res := .next (s.mgmtWrite fun t => t.onLinks Links.stopInjection)

/-- INJCNT_READ (R242): the count, which clears. -/
def execInjcntRead (tl : Option (Fin 8)) (s : State) : Res :=
  .next (match tl with
    | none => s.mgmtRead (fun t => BitVec.ofNat 32 t.links.inj.count)
        fun t => t.onLinks fun l => { l with inj := { l.inj with count := 0 } }
    | some n => s.planeRead (s.hasTlk n) (tlkAddr n.val 0x28) (fun t => BitVec.ofNat 32 (t.tlk n).inj.count)
        fun t => t.onTlk n fun k => { k with inj := { k.inj with count := 0 } })

/-- A MGT_TEST.PERMIT write (R241, R298): a 1 is ignored without OTP permit, a 0 ends every injection. -/
def State.writePermit (permit : Bool) (s : State) : State :=
  if permit then
    (if s.injPermitted then s.changeRegime fun t => t.onSys fun y => { y with permit := true } else s)
  else (s.changeRegime fun t => t.onSys fun y => { y with permit := false }).stopInjections

def execMgtTestPermitWrite (permit : Bool) (s : State) : Res := .next (s.mgmtWrite (State.writePermit permit))

end Sys2Proof.Machine
end

