-- ==== Sys2Proof/Machine/TohevikOps.lean ====
section
/-!
DEFINITION. Tohevik frames (R227 to R229) and how they cross a chain (R224 to R226), the downstream cycle (R225, R230) and the injector on a
port (R242).
-/

namespace Sys2Proof.Machine

/-! ## Frames -/

/-- A frame of an address, a sequence, a type and a payload, with its CRC (R227). -/
def mkFrame (addr seq type : Nat) (payload : BitVec 160) : BitVec 192 :=
  let body := BitVec.ofNat 8 (16 * (addr % 16) + seq % 16) :: BitVec.ofNat 8 type :: leBytes 20 payload.toNat
  let crc := crc16 body
  BitVec.ofNat 192 (leNat (body ++ [crc.extractLsb' 8 8, crc.extractLsb' 0 8]))

def frameAddr (f : BitVec 192) : Nat := (f.extractLsb' 4 4).toNat
def frameSeq (f : BitVec 192) : Nat := (f.extractLsb' 0 4).toNat
def frameType (f : BitVec 192) : Nat := (f.extractLsb' 8 8).toNat
def framePayload (f : BitVec 192) : BitVec 160 := f.extractLsb' 16 160
/-- Byte `k` of the payload. -/
def payloadByte (f : BitVec 192) (k : Nat) : Nat := (f.extractLsb' (16 + 8 * k) 8).toNat

/-- A frame as it arrives: its 24 bytes, byte 0 in bits 7:0, and whether every symbol was a valid code group in running disparity (R225). -/
structure Frame where
  bits : BitVec 192
  codeOk : Bool := true
  deriving DecidableEq, Repr, Inhabited

/-- The CRC and every code group are right (R225, R228). -/
def frameOk (f : Frame) : Bool := f.codeOk && crc16 ((frameBytes f.bits).take 22) == frameCrc f.bits

/-- The EMPTY frame of a slot. -/
def emptyFrame (p : Nat) : BitVec 192 := mkFrame p 0 0 0

/-- The SAFE frame of R228. -/
def safeFrameBits : BitVec 192 := mkFrame 0xF 0 0x1F 0x45464153

/-! ## Frames on a pair (R224, R225) -/

def frameValues (f : BitVec 192) : List Nat := (frameBytes f).map BitVec.toNat

/-- The disparity after frames sent one after another. -/
def afterFrames (rd : Bool) (l : List (BitVec 192)) : Bool := l.foldl (fun r f => (codeGroups r (frameValues f)).2) rd

/-- A frame as it arrives with line bits inverted. The receiver's disparity at its start is the sender's (log entry 104). -/
def arriving (rd : Bool) (f : BitVec 192) (flips : BitVec 240) : Frame :=
  let l := received rd (frameValues f) flips.toNat
  { bits := BitVec.ofNat 192 (leNat (l.map fun b => BitVec.ofNat 8 (b.getD 0))), codeOk := l.all Option.isSome }

/-- A cycle begins on the downstream pair with SYNC, and carries its frames (R225). -/
def Tlk.send (now : Nat) (frames : List (BitVec 192)) (k : Tlk) : Tlk :=
  { k with cycle := k.cycle + 1, rd := afterSync (afterFrames k.rd k.sent), sent := frames, startAt := now }

/-- The downstream frame of a slot as a node receives it. -/
def Tlk.slotArriving (p : Nat) (flips : BitVec 240) (k : Tlk) : Option Frame :=
  k.sent[p]?.map fun f => arriving (afterFrames k.rd (k.sent.take p)) f flips

/-- An upstream cycle's frames set out for the Plenu. -/
def Tlk.sendUp (frames : List (BitVec 192)) (k : Tlk) : Tlk :=
  let rd := afterSync k.upRd
  { k with up := k.up ++ frames.mapIdx fun p f => { pos := p, bits := f, rd := afterFrames rd (frames.take p) }
           upRd := afterFrames rd frames }

/-! ## The injector on a port (R242) -/

/-- A frame of the node and direction under injection: what goes out in its slot, EMPTY where it is dropped or held; a held frame goes
out in the slot of the next cycle but one. -/
def injectFrame (i : Injector) (p : Nat) (f : BitVec 192) : BitVec 192 × Injector :=
  match i.held with
  | some (h, 0) => (h, { i.see false with held := none })
  | some (h, n + 1) => (f, { i.see false with held := some (h, n) })
  | none =>
    if i.hit then
      match i.kind with
      | 1 => (emptyFrame p, i.see true)
      | 2 => (f ^^^ i.mask 192, i.see true)
      | 3 => (emptyFrame p, { i.see true with held := some (f, 1) })
      | _ => (f, i.see false)
    else (f, i.see false)

/-- The injection acts on position `p` of a direction: 0 downstream, 1 upstream. -/
def Injector.on (i : Injector) (dir p : Nat) : Bool := i.active && i.sel = 8 * dir + p

/-! ## The chain as declared -/

/-- Records of a port's chain in order of position. -/
def Image.chain (i : Image) (n : Nat) : List NodeRec :=
  (List.range 8).filterMap fun p => i.nodes.find? fun r => r.port = n && r.position = p

/-- The CONFIG payload of a position (R228). -/
def NodeRec.config (r : NodeRec) (last : Bool) : BitVec 48 :=
  BitVec.ofNat 48 (leNat ([r.motor, r.safe, r.solMask, r.inMask, r.enc, last.toNat].map (BitVec.ofNat 8)))

/-- A count that covers every bit of a mask. -/
def maskCount (m : Nat) : Nat := if m.testBit 3 then 4 else if m.testBit 2 then 3 else if m.testBit 1 then 2 else if m.testBit 0 then 1 else 0

/-- IDENT shows every resource the record uses (R233). -/
def NodeRec.supported (r : NodeRec) (ident : Word) : Bool :=
  (r.motor = 0 || ident.getLsbD (r.motor - 1)) && (r.enc = 0 || ident.getLsbD 3) &&
    maskCount r.solMask ≤ fld ident 8 8 && maskCount r.inMask ≤ fld ident 16 8

namespace State

/-- The chain of a port. -/
def chain (n : Fin 8) (s : State) : List NodeRec := s.top.image.chain n.val

/-- FAULT index of a node (R311). -/
def nodeIndex (n p : Nat) : Nat := 8 * n + p

/-- The slot that drives a node's bridge runs or holds, or a PARK of it waits for the last delivery (R189, R230). -/
def bridgeDriven (n p : Nat) (s : State) : Bool :=
  allSlots.any fun x =>
    let y := s.slot x.1 x.2
    y.cfg.outKind = 2 && y.cfg.outIndex = 8 * n + p && (y.state = .running || y.state = .holding || y.parking)

/-- Every slot whose output targets the node is parked (R237). -/
def targetsParked (n p : Nat) (s : State) : Bool :=
  allSlots.all fun x =>
    let y := s.slot x.1 x.2
    y.state = .free || !targetsNode n p y.cfg || (y.state = .parked && !y.parking)

/-- The command of a node for this cycle, BRIDGE included (R230). -/
def nodeCommand (n p : Fin 8) (r : NodeRec) (s : State) : BitVec 160 :=
  putField (s.tnode n p).command 48 8 (if s.bridgeDriven n.val p.val then 2 else r.safe)

end State

/-- The node's command goes out: SEQ advances where it differs from the last one sent, the first one carries 1 (R230). -/
def TNode.sending (cmd : BitVec 160) (t : TNode) : TNode :=
  match t.sentCmd with
  | none => { t with sentCmd := some cmd, cseq := 1 }
  | some c => if c = cmd then t else { t with sentCmd := some cmd, cseq := (t.cseq + 1) % 16 }

/-- A cycle begins for the feedback watch: a cycle without accepted feedback breaks VALIDCYC and counts toward the loss (R235). -/
def TNode.watch (t : TNode) : TNode :=
  if !t.configured then t
  else if t.seenNow then { t with seenNow := false, missing := 0 }
  else { t with missing := min 3 (t.missing + 1), validCyc := 0 }

namespace State

/-- The frame of a slot of a running port. -/
def runningFrame (n p : Fin 8) (r : NodeRec) (s : State) : BitVec 192 :=
  let t := s.tnode n p
  if !t.configured then emptyFrame p.val
  else if t.restoring then mkFrame p.val t.cseq 0x13 0
  else if t.sendSafe then safeFrameBits
  else mkFrame p.val t.cseq 0x01 (s.nodeCommand n p r)

/-- The frame of a slot in the present cycle (R225, R230, R233, R238, R240). -/
def slotFrame (n p : Fin 8) (s : State) : BitVec 192 :=
  let k := s.tlk n
  let nodesOf := s.chain n
  match k.state with
  | .training =>
    if k.resetCycles != 0 then safeFrameBits
    else match k.step with
      | .unaddr => if p.val = 0 then mkFrame 0xF 0 0x10 0 else emptyFrame p.val
      | .address q => if p.val = q then mkFrame 0xE 0 0x11 (BitVec.ofNat 160 q) else emptyFrame p.val
      | .config => match nodesOf[p.val]? with
        | some r => if (s.tnode n p).lost then emptyFrame p.val
            else mkFrame p.val 0 0x12 ((r.config (p.val + 1 = nodesOf.length)).setWidth 160)
        | none => emptyFrame p.val
      | .none => emptyFrame p.val
  | .safe => safeFrameBits
  | .running => match nodesOf[p.val]? with
    | some r => s.runningFrame n p r
    | none => emptyFrame p.val
  | _ => emptyFrame p.val

/-- A running port's nodes take note of what goes out. -/
def noteSent (n : Fin 8) (s : State) : State :=
  (List.finRange 8).foldl (fun t p =>
    match (s.chain n)[p.val]? with
    | some r =>
      let cmd := s.nodeCommand n p r
      t.onTNode n p fun k =>
        let k1 := if k.configured && !k.restoring && !k.sendSafe && (s.tlk n).state = .running then k.sending cmd else k
        if (s.tlk n).state = .safe || (k.sendSafe && !k.restoring) then { k1 with safeSent := true } else k1
    | none => t) s

end State

end Sys2Proof.Machine
end

