-- ==== Sys2Proof/Machine/Nodes.lean ====
section
/-!
DEFINITION. The conforming node (R226 to R239): what it does with SYNC and the frames it hears, what it sends, and its own timers. Nodes
stand at their places on the cable; a node's address is what training gives it.
-/

namespace Sys2Proof.Machine

/-! ## What a node sends -/

/-- STATUS of R229: local safe state, suspended, and the troubles it samples. -/
def Node.status (d : Node) : Nat := d.localSafe.toNat + 2 * d.suspended.toNat + 4 * d.sample.trouble.toNat

/-- The FEEDBACK payload (R229). -/
def Node.feedback (d : Node) : BitVec 160 :=
  let x := d.sample
  BitVec.ofNat 160 (leNat (leBytes 4 x.enc.toNat ++ leBytes 2 x.curA.toNat ++ leBytes 2 x.curB.toNat ++ leBytes 2 x.vbridge.toNat ++
    [x.inputs.toNat, d.status, d.lastSeq % 16, d.ncrc, d.ngap, d.nstale].map (BitVec.ofNat 8)))

/-- The IDENT payload (R228). -/
def identPayload (x : NodeIdent) : BitVec 160 :=
  BitVec.ofNat 160 (leNat ([x.caps, x.solenoids, x.inputs, x.hwrev] ++ leBytes 8 x.uid.toNat))

/-- The CONFIG_ACK payload (R228): the record as taken, and byte 6. -/
def Node.ackPayload (unsupported : Bool) (d : Node) : BitVec 160 :=
  BitVec.ofNat 160 (leNat ([d.motor, d.safe, d.solMask, d.inMask, d.enc, d.last.toNat, unsupported.toNat].map (BitVec.ofNat 8)))

/-- The frame the node puts into its slot (R226, R228): its feedback, or its reply to ADDRESS or CONFIG. -/
def Node.frame (d : Node) : BitVec 192 :=
  match d.reply with
  | .feedback => mkFrame (d.address.getD 0) d.seq 0x81 d.feedback
  | .ident => mkFrame (d.address.getD 0) d.seq 0x91 (identPayload d.ident)
  | .ack u => mkFrame (d.address.getD 0) d.seq 0x92 (d.ackPayload u)

/-! ## SYNC -/

/-- SYNC reaches a node (R226): it samples, advances its feedback SEQ (R232), and has its frame for the upstream cycle. It forwards from the
cycle after the one that carries its IDENT (R233). -/
def Node.sync (x : NodeSample) (d : Node) : Node :=
  let e := { d with reached := true, sample := x, seq := (d.seq + 1) % 16 }
  { e with up := e.frame, reply := .feedback, forwarding := d.address.isSome && d.reply != .ident }

/-- A node repeats upstream once the next one's upstream cycle comes; the last one, and one without an address, originates (R226, R233). -/
def Node.hearUp (next : Bool) (d : Node) : Node := if d.reached && d.address.isSome && !d.last && next then { d with originating := false } else d

/-- A cycle reaches the nodes in order, as far as each forwards and the pair and the supplies let it. -/
def syncNodes (samples : Vector (Option NodeSample) 8) (w : Vector Node 8) : Vector Node 8 :=
  let r := (List.finRange 8).foldl (fun (x : Vector Node 8 × Bool) i =>
    match (if x.2 then samples[i.val] else none) with
    | some m => let d := (x.1[i.val]).sync m; (x.1.set i.val d, d.forwarding)
    | none => (upd x.1 i fun d => { d with reached := false }, false)) (w, true)
  Vector.ofFn fun i => (r.1[i.val]).hearUp ((elem? r.1 (i.val + 1)).any (·.reached))

/-- The node that originates the upstream cycle, where every node before it repeats it (R226). -/
def originator (w : Vector Node 8) : Option (Fin 8) :=
  ((List.finRange 8).find? fun i => (w[i.val]).originating).filter fun i => (List.finRange 8).all fun j => i < j || (w[j.val]).reached

/-- The frames of the upstream cycle at the Plenu: each slot as the nearest node with that position fills it, EMPTY where none does. -/
def upstreamCycle (w : Vector Node 8) : List (BitVec 192) :=
  match originator w with
  | some i => (List.range 8).map fun p =>
    (((List.finRange 8).find? fun j => j ≤ i && (w[j.val]).address = some p).map fun j => (w[j.val]).up).getD (emptyFrame p)
  | none => []

namespace State

/-- The upstream cycle sets out for the Plenu. -/
def sendUp (n : Fin 8) (s : State) : State :=
  match upstreamCycle s.nodes[n.val] with
  | [] => s
  | l => s.onTlk n (Tlk.sendUp l)

/-- A cycle of the port passes along its chain. -/
def syncChain (n : Fin 8) (samples : Vector (Option NodeSample) 8) (s : State) : State :=
  (s.onNodes fun v => upd v n (syncNodes samples)).sendUp n

end State

/-! ## Frames -/

/-- The local safe state (R235): the bridge at SAFE, the solenoids off. -/
def Node.toLocalSafe (d : Node) : Node :=
  { d with localSafe := true, waitCommand := false, bridge := d.safe, duty := 0, solOn := 0, solLevel := 0 }

/-- A node that loses its position: it stops forwarding, originates upstream as if it were last, and is in its local safe state (R228,
R233). -/
def Node.unaddressed (d : Node) : Node :=
  { d.toLocalSafe with address := none, forwarding := false, originating := true, suspended := false, reply := .feedback }

/-- A node that has just powered up (R233). -/
def Node.powered (ident : NodeIdent) : Node := { ident }

/-- The outputs of a command (R229). -/
def Node.apply (f : BitVec 192) (d : Node) : Node :=
  { d with duty := f.extractLsb' 16 48, bridge := fld (f.extractLsb' 64 32) 0 2, solOn := f.extractLsb' 72 4
           solLevel := f.extractLsb' 80 64, suspended := false, waitCommand := false }

/-- COMMAND with a good CRC (R231): in its local safe state a node ignores its outputs (R235); its first one ends a suspension (R239). -/
def Node.command (f : BitVec 192) (d : Node) : Node :=
  if d.localSafe then { d with suspended := false }
  else
    let k := (frameSeq f + 16 - d.lastSeq % 16) % 16
    let e : Node := { d with suspended := false }
    if k = 0 then e
    else if k ≤ 7 then { e.apply f with lastSeq := frameSeq f, ngap := satAdd 255 e.ngap (k - 1) }
    else { e with nstale := satAdd 255 e.nstale 1 }

/-- A frame in the node's slot (R231): one with a CRC or code error counts in NCRC; one of the type, for its position or for all, is acted on
and counts as a keepalive; any other is ignored. -/
def Node.hear (type : Nat) (broadcast : Bool) (now : Nat) (frame : Frame) (f : Node → Node) (d : Node) : Node :=
  if !frameOk frame then { d with ncrc := satAdd 255 d.ncrc 1 }
  else if frameType frame.bits = type &&
      (if broadcast then frameAddr frame.bits = 0xF else d.address = some (frameAddr frame.bits)) then { f d with heardAt := now }
  else d

namespace State

/-- The frame in a node's slot as it arrives there, where the cycle reaches the node (log entry 104). -/
def heard (n i : Fin 8) (flips : BitVec 240) (s : State) : Option Frame :=
  if (s.node n i).reached then (s.node n i).address.bind fun p => (s.tlk n).slotArriving p flips else none

/-- A node hears its frame. -/
def hearFrame (n i : Fin 8) (type : Nat) (broadcast : Bool) (flips : BitVec 240) (f : BitVec 192 → Node → Node) (s : State) : State :=
  match s.heard n i flips with
  | some x => s.onNode n i (Node.hear type broadcast s.times.passed x (f x.bits))
  | none => s

end State

/-- COMMAND (R231). -/
def execCommand (tl node : Fin 8) (flips : BitVec 240) (s : State) : Res :=
  .next (s.hearFrame tl node 0x01 false flips Node.command)

/-- A node in whose reach UNADDR passes; a disturbed frame counts at the node whose slot it is. -/
def Node.unaddr (frame : Frame) (d : Node) : Node :=
  if !d.reached then d
  else if !frameOk frame then (if d.address = some 0 then { d with ncrc := satAdd 255 d.ncrc 1 } else d)
  else if frameType frame.bits = 0x10 && frameAddr frame.bits = 0xF then d.unaddressed else d

/-- UNADDR (R228): slot 0, every node the cycle reaches. -/
def execUnaddr (tl : Fin 8) (s : State) (flips : BitVec 240 := 0) : Res :=
  .next (match (s.tlk tl).slotArriving 0 flips with
    | some f => s.onNodes fun v => upd v tl fun w => w.map (Node.unaddr f)
    | none => s)

/-- The first unaddressed node of a chain, the only one that hears ADDRESS (R233). -/
def firstUnaddressed (w : Vector Node 8) : Option (Fin 8) := (List.finRange 8).find? fun i => (w[i.val]).address.isNone

/-- The node takes a position, and answers IDENT in the next cycle (R233). -/
def Node.addressed (pos : Nat) (d : Node) : Node := { d with address := some pos, reply := .ident }

/-- The ADDRESS frame of the cycle as it arrives. -/
def Tlk.addressArriving (flips : BitVec 240) (k : Tlk) : Option Frame :=
  ((List.range 8).find? fun p => (k.sent[p]?).any fun f => frameType f = 0x11).bind fun p => k.slotArriving p flips

/-- ADDRESS (R233). -/
def execAddress (tl : Fin 8) (flips : BitVec 240) (s : State) : Res :=
  .next (match (s.tlk tl).addressArriving flips, firstUnaddressed s.nodes[tl.val] with
    | some f, some i =>
      if (s.node tl i).reached && frameOk f && frameType f.bits = 0x11 && frameAddr f.bits = 0xE then
        s.onNode tl i (Node.addressed (payloadByte f.bits 0))
      else s
    | _, _ => s)

/-- The node lacks a resource of the record it has taken: byte 6 of CONFIG_ACK (log entry 104). -/
def Node.lacks (d : Node) : Bool :=
  let r : NodeRec := { (default : NodeRec) with motor := d.motor, enc := d.enc, solMask := d.solMask, inMask := d.inMask }
  !r.supported (d.ident.hwrev ++ (d.ident.inputs ++ (d.ident.solenoids ++ d.ident.caps)))

/-- CONFIG (R228, R231): the record, LAST, the last applied SEQ 0 and the counters from 0; CONFIG_ACK follows. -/
def Node.config (f : BitVec 192) (d : Node) : Node :=
  let b := payloadByte f
  let e : Node := { d with motor := b 0, safe := b 1, solMask := b 2, inMask := b 3, enc := b 4, last := b 5 = 1
                           originating := d.originating || b 5 = 1
                           bridge := if d.localSafe then b 1 else d.bridge, lastSeq := 0, ncrc := 0, ngap := 0, nstale := 0 }
  { e with reply := .ack e.lacks }

def execConfig (tl node : Fin 8) (flips : BitVec 240) (s : State) : Res :=
  .next (s.hearFrame tl node 0x12 false flips Node.config)

/-- RESTORE (R237): the node leaves its local safe state, its bridge at SAFE and its solenoids off until the next COMMAND. -/
def Node.restore (d : Node) : Node := if d.localSafe then { d with localSafe := false, waitCommand := true } else d

def execRestore (tl node : Fin 8) (flips : BitVec 240) (s : State) : Res :=
  .next (s.hearFrame tl node 0x13 false flips fun _ => Node.restore)

/-- SUSPEND (R228, R239): the bridge state of byte 0; the solenoids of byte 1 stay on at their last level. -/
def Node.suspend (f : BitVec 192) (d : Node) : Node :=
  if d.localSafe then { d with suspended := true }
  else { d with suspended := true, bridge := payloadByte f 0 % 4, duty := 0, solOn := d.solOn &&& f.extractLsb' 24 4 }

def execSuspend (tl node : Fin 8) (flips : BitVec 240) (s : State) : Res :=
  .next (s.hearFrame tl node 0x14 false flips Node.suspend)

/-- SAFE (R238). -/
def execSafeFrame (tl node : Fin 8) (flips : BitVec 240) (s : State) : Res :=
  .next (s.hearFrame tl node 0x1F true flips fun _ => Node.toLocalSafe)

/-! ## A node's own events -/

/-- NODE_LOSS_TIMEOUT (R235): 54.0 µs, 10 800 ticks, without a keepalive; a suspended node does not run its timer (R239). -/
def execNodeLossTimeout (tl node : Fin 8) (s : State) : Res :=
  .next (s.onNode tl node fun d => if !d.suspended && d.heardAt + 10800 ≤ s.times.passed then d.toLocalSafe else d)

/-- NODE_POWER_UP (R233). -/
def execNodePowerUp (tl node : Fin 8) (s : State) (ident : NodeIdent := {}) : Res := .next (s.onNode tl node fun _ => Node.powered ident)

/-- No upstream cycle comes to node `i` from the nodes after it. -/
def silentBeyond (i : Fin 8) (w : Vector Node 8) : Bool :=
  (List.finRange 8).all fun j => j ≤ i || !(w[j.val]).originating || (List.finRange 8).any fun k => i < k && k ≤ j && !(w[k.val]).reached

/-- The node misses the upstream SYNC of a cycle that has reached it. -/
def missesUp (i : Fin 8) (w : Vector Node 8) : Bool := (w[i.val]).reached && !(w[i.val]).originating && silentBeyond i w

/-- NODE_ORIGINATES_UPSTREAM (R226): the node originates, and the cycle sets out where the nodes before it repeat it. -/
def execNodeOriginatesUpstream (tl node : Fin 8) (s : State) : Res :=
  .next (if missesUp node s.nodes[tl.val] then
    let s1 := s.onNode tl node fun d => { d with originating := true }
    if originator s1.nodes[tl.val] = some node then s1.sendUp tl else s1
  else s)

end Sys2Proof.Machine
end

