-- ==== Sys2Proof/Machine/Tohevik.lean ====
section
/-!
DEFINITION. The commands of a Tohevik port (R225 to R244): the downstream cycle, upstream frames, training, lost nodes, restore, and
fault injection on a port.
-/

namespace Sys2Proof.Machine

/-! ## The downstream cycle -/

/-- A training cycle has been sent: the SAFE cycles of a block reset run out first (R240), then the present step takes its cycles; the
step UNADDR takes four (R233). -/
def Tlk.trained (k : Tlk) : Tlk :=
  if k.state != .training then k
  else if k.resetCycles != 0 then { k with resetCycles := k.resetCycles - 1 }
  else if k.step = .unaddr && 4 ≤ k.stepCycles + 1 then { k with step := .address 0, stepCycles := 0 }
  else { k with stepCycles := k.stepCycles + 1 }

namespace State

/-- The eight frames of a cycle, the chosen one altered by an injection (R242). -/
def injectCycle (n : Fin 8) (frame : Fin 8 → BitVec 192) (s : State) : List (BitVec 192) × Injector :=
  (List.finRange 8).foldl (fun (x : List (BitVec 192) × Injector) p =>
    if x.2.on 0 p.val then let y := injectFrame x.2 p.val (frame p); (x.1 ++ [y.1], y.2) else (x.1 ++ [frame p], x.2)) ([], (s.tlk n).inj)

/-- A cycle of the port carries these frames, as an injection leaves them. -/
def sendFrames (n : Fin 8) (frame : Fin 8 → BitVec 192) (s : State) : State :=
  let r := s.injectCycle n frame
  s.onTlk n fun k => { k.send s.times.passed r.1 with inj := r.2 }

/-- A cycle of a port that is not stopped. A port that trains does not watch for feedback. -/
def sendCycle (n : Fin 8) (s : State) : State :=
  let s1 := (s.onTlk n fun k => if k.state = .training then k else { k with nodes := k.nodes.map TNode.watch }).noteSent n
  (s1.sendFrames n fun p => s1.slotFrame n p).onTlk n Tlk.trained

end State

/-- TLINK_CYCLE_START (R225, R226, R230): the cycle sets out, SYNC passes along the chain, and the upstream cycle comes back. -/
def execTlinkCycleStart (tl : Fin 8) (s : State) (samples : Vector (Option NodeSample) 8 := Vector.replicate 8 none) : Res :=
  let st := (s.tlk tl).state
  .next (if s.clocked && s.hasTlk tl && st != .unused && st != .suspended then (s.sendCycle tl).syncChain tl samples else s)

/-! ## Lost nodes -/

/-- The node as lost: SAFE in its slot until RESTORE (R235). -/
def TNode.lose (t : TNode) : TNode := { t with lost := true, sendSafe := true, restoring := false }

namespace State

/-- A configured node is lost (R235): its slots park and source 0x53 names it. -/
def loseNode (n p : Fin 8) (s : State) : State :=
  ((s.onTNode n p TNode.lose).parkWhere (targetsNode n.val p.val)).raise .control 0x53 6 (nodeIndex n.val p.val)

/-- Positions of a chain that satisfy a test are marked lost in training, the port goes on, and 0x53 is raised for the first (R234). The raise
comes last: where source 0x53 resets the block, the reset stands (R240). -/
def loseTraining (n : Fin 8) (f : Fin 8 → Bool) (after : State → State) (s : State) : State :=
  let bad := (List.finRange 8).filter fun p => p.val < (s.chain n).length && f p && !(s.tnode n p).lost
  match bad with
  | [] => after s
  | p :: _ => (after (bad.foldl (fun t q => t.onTNode n q fun k => { k with lost := true }) s)).raise .control 0x53 6 (nodeIndex n.val p.val)

/-- The feedback watch starts anew (R235). -/
def TNode.watched (t : TNode) : TNode := if t.configured then { t with missing := 0, seenNow := true } else t

/-- The port runs once every position is configured or lost (R233 step 4): in the safe state it sends SAFE (R238). RTT is the round
trip of R226 over the nodes that answered (log entry 29). -/
def finishTraining (n : Fin 8) (s : State) : State :=
  let len := (s.chain n).length
  let done := (List.finRange 8).all fun p => len ≤ p.val || (s.tnode n p).configured || (s.tnode n p).lost
  let up := ((List.finRange 8).filter fun p => p.val < len && (s.tnode n p).addressed).length
  if done then
    s.onTlk n fun k => { k with state := if s.flt.safe then .safe else .running, step := .none, stepCycles := 0
                                rtt := BitVec.ofNat 16 (12 * up + Config.cableDelay n), nodes := k.nodes.map TNode.watched }
  else s

/-- Step 2 is over: positions whose round trip exceeds 193 symbols (R226), or whose resources the record needs and IDENT lacks (R233), are
lost; the others are configured. -/
def enterConfig (n : Fin 8) (s : State) : State :=
  let bad (p : Fin 8) : Bool :=
    193 < 12 * (p.val + 1) + Config.cableDelay n ||
      ((s.chain n)[p.val]?).any fun r => !r.supported (s.tnode n p).caps
  (s.onTlk n fun k => { k with step := .config, stepCycles := 0 }).loseTraining n bad (finishTraining n)

/-- Symbols from the start of a downstream cycle to the end of upstream slot `p` that comes within it: of its own upstream cycle, or of the one
before (R226). -/
def slotEnd (nodes p : Nat) : Nat := let e := 12 * nodes + 25 + 24 * p; if 193 < e then e - 193 else e

/-- The present upstream cycle's slot of the position is over with no feedback accepted. -/
def slotMissed (n p : Fin 8) (s : State) : Bool :=
  let k := s.tlk n
  !(s.tnode n p).seenNow && (k.up.all fun u => u.pos != p.val) && k.startAt + 16 * slotEnd (s.chain n).length p.val ≤ s.times.passed

end State

/-- NODE_LOST (R235): the end of the slot in the third cycle in a row without accepted feedback. -/
def execNodeLost (tl pos : Fin 8) (s : State) : Res :=
  let t := s.tnode tl pos
  let st := (s.tlk tl).state
  .next (if s.clocked && s.hasTlk tl && (st = .running || st = .safe) && t.configured && !t.lost && 2 ≤ t.missing && s.slotMissed tl pos then
    s.loseNode tl pos
  else s)

/-! ## Training (R233, R234) -/

/-- A node at the start of a training. -/
def TNode.untrained (t : TNode) : TNode :=
  { t with addressed := false, configured := false, lost := false, sendSafe := false, restoring := false, fbSeq := none, sentCmd := none
           validCyc := 0, missing := 0, seenNow := false, delivered := false, clearSeen := false, safeSent := true }

/-- The port trains from its first step. -/
def Tlk.train (k : Tlk) : Tlk :=
  { k with state := .training, step := .unaddr, stepCycles := 0, resetCycles := 0, nodes := k.nodes.map TNode.untrained }

/-- A TRAIN write is ignored while training, and by a port without records. -/
def State.trainPort (n : Fin 8) (s : State) : State :=
  if (s.tlk n).state = .training || s.chain n = [] then s else s.onTlk n Tlk.train

/-- TRAIN (R233). -/
def execTrain (tl : Fin 8) (s : State) : Res := .next (s.planeWrite (s.hasTlk tl) (tlkAddr tl.val 0) (State.trainPort tl))

namespace State

/-- Position `p` has answered ADDRESS: the next one is addressed, or the chain is configured. -/
def identified (n p : Fin 8) (caps : Word) (uid : BitVec 64) (s : State) : State :=
  let s1 := s.onTNode n p fun t => { t with addressed := true, caps := caps, uid := uid }
  if p.val + 1 < (s.chain n).length then s1.onTlk n fun k => { k with step := .address (p.val + 1), stepCycles := 0 }
  else s1.enterConfig n

end State

/-! ## Upstream frames -/

namespace State

/-- The upstream frame after an injection on its node and direction (R242). -/
def injectUpstream (n p : Fin 8) (f : BitVec 192) (s : State) : BitVec 192 × State :=
  if (s.tlk n).inj.on 1 p.val then
    let y := injectFrame (s.tlk n).inj p.val f
    (y.1, s.onTlk n fun k => { k with inj := y.2 })
  else (f, s)

/-- The next frame in upstream slot `p` comes in at the Plenu, with line bits inverted. -/
def receiveUp (n p : Fin 8) (flips : BitVec 240) (s : State) : Option (Frame × State) :=
  ((s.tlk n).up.find? fun u => u.pos = p.val).map fun u =>
    let y := (s.onTlk n fun k => { k with up := k.up.eraseP fun v => v.pos = p.val }).injectUpstream n p u.bits
    (arriving u.rd y.1 flips, y.2)

/-- A frame with a CRC or code error in a configured node's slot (R232). -/
def badFeedback (n p : Fin 8) (s : State) : State :=
  if (s.tnode n p).configured then
    (s.onTNode n p fun t => { t with plncrc := satAdd 255 t.plncrc 1 }).raise .control 0x50 6 (nodeIndex n.val p.val)
  else s

/-- An upstream slot of a port that carries cycles: what its frame does where it is right, of the type and of the position. -/
def upstream (n p : Fin 8) (type : Nat) (flips : BitVec 240) (f : BitVec 192 → State → State) (s : State) : State :=
  let st := (s.tlk n).state
  if s.clocked && st != .unused && st != .suspended then
    match s.receiveUp n p flips with
    | some (x, t) =>
      if !frameOk x then t.badFeedback n p
      else if frameType x.bits = type && frameAddr x.bits = p.val then f x.bits t else t
    | none => s
  else s

/-- The upstream slot's frame, where it is broken or its payload begins with `x`; a whole frame that says otherwise stays on its way. -/
def upstreamSaying (n p : Fin 8) (type w : Nat) (x : BitVec w) (flips : BitVec 240) (f : BitVec 192 → State → State) (s : State) : State :=
  if (s.receiveUp n p flips).any fun y => frameOk y.1 && y.1.bits.extractLsb' 16 w != x then s else s.upstream n p type flips f

/-- An IDENT for the position being addressed (R233). -/
def takeIdent (n p : Fin 8) (f : BitVec 192) (s : State) : State :=
  let k := s.tlk n
  if k.state = .training && k.resetCycles = 0 && k.step = .address p.val then
    s.identified n p (f.extractLsb' 16 32) (f.extractLsb' 48 64)
  else s

end State

/-- IDENT in upstream slot `pos` (R233), of the CAPS, hardware revision and UID the operands name (log entry 10). -/
def execIdent (tl pos : Fin 8) (caps solenoids inputs hwrev : Byte) (uid : BitVec 64) (s : State) (flips : BitVec 240 := 0) : Res :=
  .next (s.upstreamSaying tl pos 0x91 96 (uid ++ (hwrev ++ (inputs ++ (solenoids ++ caps)))) flips (State.takeIdent tl pos))

/-- A node accepted by CONFIG_ACK; its counters start from 0. -/
def TNode.configure (t : TNode) : TNode :=
  { t with configured := true, cseq := 0, sentCmd := none, fbSeq := none, missing := 0, seenNow := true, validCyc := 0
           ncrc := 0, ngap := 0, nstale := 0, clearSeen := false, safeSent := false, command := 0 }

namespace State

/-- A CONFIG_ACK (R233): it must echo the record; byte 6 = 1 fails the position (R234). -/
def takeAck (n p : Fin 8) (f : BitVec 192) (s : State) : State :=
  let k := s.tlk n
  let nodesOf := s.chain n
  let t := s.tnode n p
  match nodesOf[p.val]? with
  | some r =>
    if k.state = .training && k.step = .config && !t.lost && !t.configured then
      if payloadByte f 6 = 0 && f.extractLsb' 16 48 = r.config (p.val + 1 = nodesOf.length) then
        (s.onTNode n p TNode.configure).finishTraining n
      else if payloadByte f 6 = 1 then s.loseTraining n (· = p) (State.finishTraining n)
      else s
    else s
  | none => s

end State

/-- CONFIG_ACK (R233) in upstream slot `pos`, of the echo and byte 6 the operands name (log entry 10). -/
def execConfigAck (tl pos : Fin 8) (echo : BitVec 48) (status : Byte) (s : State) (flips : BitVec 240 := 0) : Res :=
  .next (s.upstreamSaying tl pos 0x92 56 (status ++ echo) flips (State.takeAck tl pos))

namespace State

/-- A training step has taken 16 cycles (R234). -/
def trainingFails (n : Fin 8) (s : State) : State :=
  match (s.tlk n).step with
  | .address q => s.loseTraining n (fun p => decide (q ≤ p.val)) (State.enterConfig n)
  | .config => s.loseTraining n (fun p => !(s.tnode n p).configured) (State.finishTraining n)
  | _ => s

end State

/-- TRAINING_TIMEOUT (R233, R234). -/
def execTrainingTimeout (tl : Fin 8) (s : State) : Res :=
  let k := s.tlk tl
  .next (if s.clocked && k.state = .training && k.resetCycles = 0 && 16 ≤ k.stepCycles then s.trainingFails tl else s)

/-! ## Feedback (R232, R236) -/

/-- The values of an accepted FEEDBACK frame (R229). -/
def TNode.accept (f : BitVec 192) (t : TNode) : TNode :=
  let b := payloadByte f
  { t with enc := f.extractLsb' 16 32, curA := f.extractLsb' 48 16, curB := f.extractLsb' 64 16, vbridge := f.extractLsb' 80 16
           inputs := f.extractLsb' 96 2, status := f.extractLsb' 104 8, nodeSafe := f.getLsbD 104, ackSeq := b 12 % 16
           ncrc := b 13, ngap := b 14, nstale := b 15, fbSeq := some (frameSeq f), validCyc := satAdd 255 t.validCyc 1
           seenNow := true, missing := 0, delivered := true, clearSeen := t.clearSeen || !f.getLsbD 104
           safeSent := t.safeSent && f.getLsbD 104 }

/-- Feedback with STATUS bit 0 clear ends a restore: LOST clears and commands go on (R237). -/
def TNode.restored (t : TNode) : TNode :=
  if t.restoring && !t.nodeSafe then { t with lost := false, restoring := false, sendSafe := false } else t

namespace State

/-- The node's counters that have advanced since its last accepted frame raise their sources (R232). -/
def raiseCounters (n p : Fin 8) (old : TNode) (s : State) : State :=
  let t := s.tnode n p
  let i := nodeIndex n.val p.val
  ((s.raiseIf (old.ncrc < t.ncrc) .control 0x50 6 i).raiseIf (old.ngap < t.ngap) .control 0x51 6 i).raiseIf
    (old.nstale < t.nstale) .control 0x52 6 i

/-- A source raised for each of `k` frames counted lost (log entry 30). -/
def raiseLost (n p : Fin 8) (k : Nat) (s : State) : State :=
  (List.range k).foldl (fun t _ => t.raise .control 0x51 6 (nodeIndex n.val p.val)) s

/-- An accepted frame, with `lost` frames counted lost before it. -/
def acceptFeedback (n p : Fin 8) (f : BitVec 192) (lost : Nat) (s : State) : State :=
  let old := s.tnode n p
  let s1 := s.onTNode n p fun t => (t.accept f).restored
  let s2 := (s1.raiseLost n p lost).raiseCounters n p old
  if f.getLsbD 104 && old.clearSeen && !old.safeSent && (s.tlk n).state = .running && !old.lost then s2.loseNode n p else s2

/-- A FEEDBACK frame in a configured node's slot as it arrives (R232). The first one after CONFIG has no predecessor and is accepted
(log entry 30). -/
def checkFeedback (n p : Fin 8) (f : BitVec 192) (s : State) : State :=
  if !(s.tnode n p).configured then s
  else
    match (s.tnode n p).fbSeq with
    | none => s.acceptFeedback n p f 0
    | some q =>
      let e := (frameSeq f + 16 - q % 16) % 16
      if 1 ≤ e && e ≤ 8 then s.acceptFeedback n p f (e - 1)
      else s.raise .control 0x52 6 (nodeIndex n.val p.val)

end State

/-- FEEDBACK (R232) in upstream slot `pos`. -/
def execFeedback (tl pos : Fin 8) (flips : BitVec 240) (s : State) : Res := .next (s.upstream tl pos 0x81 flips (State.checkFeedback tl pos))

/-! ## Restore and registers -/

/-- RESTORE is sent from the next cycle on (R237). -/
def TNode.restore (t : TNode) : TNode := { t with restoring := true, clearSeen := false, safeSent := false }

/-- A RESTORE write (R237). -/
def State.restoreNode (n p : Fin 8) (s : State) : State :=
  let t := s.tnode n p
  if 16 ≤ t.validCyc && s.targetsParked n.val p.val then s.onTNode n p TNode.restore
  else s.onTNode n p fun k => { k with cerr := true }

/-- NODE_CTRL_RESTORE (R237). -/
def execNodeCtrlRestore (tl pos : Fin 8) (s : State) : Res :=
  .next (s.planeWrite (s.hasTlk tl) (tnodeAddr tl.val pos.val 4) (State.restoreNode tl pos))

/-- The injection conditions of a port's GO (R241, R242). -/
def State.injectionOk (n : Fin 8) (s : State) : Bool :=
  let i := (s.tlk n).inj
  s.mayInject && (i.kind != 2 || i.framePatternOk)

/-- GO of TLKn_INJCTRL (R241); in the safe state it ends at once. -/
def State.startInjection (n : Fin 8) (s : State) : State :=
  if s.injectionOk n then
    (s.onTlk n fun k => { k with inj := if s.flt.safe then k.inj.start.stop else k.inj.start }).raise .control 0x54 6
      (nodeIndex n.val ((s.tlk n).inj.sel % 8))
  else s.onTlk n fun k => { k with inj := { k.inj with cerr := true } }

/-- INJECTION_GO (R241). -/
def execInjectionGo (tl : Fin 8) (s : State) : Res :=
  .next (s.planeWrite (s.hasTlk tl) (tlkAddr tl.val 0x20) (State.startInjection tl))

def State.endInjection (n : Fin 8) (s : State) : State := s.onTlk n fun k => { k with inj := k.inj.stop }

/-- INJECTION_STOP (R241). -/
def execInjectionStop (tl : Fin 8) (s : State) : Res :=
  .next (s.planeWrite (s.hasTlk tl) (tlkAddr tl.val 0x20) (State.endInjection tl))

/-- TLKn_NODEp_ERR. -/
def TNode.errWord (t : TNode) : Word := pack [(24, 8, t.plncrc), (16, 8, t.ncrc), (8, 8, t.ngap), (0, 8, t.nstale)]

def State.clearPlncrc (n p : Fin 8) (s : State) : State := s.onTNode n p fun t => { t with plncrc := 0 }

/-- PLNCRC_READ (R232): the error word, whose PLNCRC clears. -/
def execPlncrcRead (tl pos : Fin 8) (s : State) : Res :=
  .next (s.planeRead (s.hasTlk tl) (tnodeAddr tl.val pos.val 8) (fun t => (t.tnode tl pos).errWord) (State.clearPlncrc tl pos))

end Sys2Proof.Machine
end

