-- ==== Sys2Proof/Machine/TopiaryOps.lean ====
section
/-!
DEFINITION. Shared operations of the topiary loader (R41 to R68): the verdict on the staged slot, the structure an image gives every
block, the exchange of the slots.
-/

namespace Sys2Proof.Machine

/-! ## The structure of an image (R66, R67) -/

namespace Image

/-- Sprig `n`: its record, its place in a gang of the record below it (R84), or mode 0x00. -/
def sprigAt (i : Image) (n : Nat) : Sprig :=
  let rec? (k : Nat) := i.sprigs.find? fun r => r.sprig = k
  match rec? n with
  | some r => r.toSprig 0
  | none =>
    match (if 1 ≤ n then rec? (n - 1) else none), (if 2 ≤ n then rec? (n - 2) else none) with
    | some r, o => if r.mode = 2 then r.toSprig 1 else
        (match o with
          | some q => if q.mode = 2 then q.toSprig 2 else {}
          | none => {})
    | none, some q => if q.mode = 2 then q.toSprig 2 else {}
    | none, none => {}

/-- VMIN of an axis (R103): a fiftieth of the lowest rated speed among its profiles, rounded up to a whole count/s. -/
def vmin (i : Image) (axis : Nat) : Nat :=
  match (i.profiles.filter fun r => r.axis = axis).map Profile.rated64 with
  | [] => 0
  | x :: rest => ceilDiv (rest.foldl min x) 3200

/-- Axis `n`: the mode 0x03 sprig whose P0 names it; forward for every axis that a profile names (R98, R99). -/
def axisAt (i : Image) (n : Nat) : Axis :=
  { sprig := ((i.sprigs.find? fun r => r.mode = 3 && r.p0 = n).map (·.sprig)).getD 0xFF
    fwd := if i.profiles.any fun r => r.axis = n then 1 else 0, vmin := i.vmin n }

/-- The initial coefficients of a law (R59). -/
def coefsOf (i : Image) (law : Nat) : Coefs := ((i.laws.find? fun x => x.1 = law).map (·.2)).getD {}

/-- A slot: parked as its record configures it, or free (R67). -/
def slotAt (i : Image) (c k : Nat) : Slot :=
  match i.slots.find? fun r => r.core = c && r.slot = k with
  | some r => { cfg := r, state := .parked, coefShadow := i.coefsOf r.law, coef := i.coefsOf r.law }
  | none => {}

/-- The power map, or every present bank on and none retained (R49, R63). -/
def powerMap (i : Image) (v : Variant) : Nat × Nat := i.power.getD (2 ^ v.banks - 1, 0)

/-- FLT_REACTn as a reaction record loads it (R62), or its reset value. -/
def reactOf (i : Image) (n : Nat) : React :=
  match i.reacts.find? fun r => r.source = n with
  | some r => React.ofWord (BitVec.ofNat 32 (r.react % 32 + 256 * r.vector))
  | none => defaultReact n

end Image

/-- A port under a new structure: registers that take their values from the image have them, windows and seam are empty (R67). -/
def Port.install (r : Option Profile) (q : Port) : Port :=
  let e : EnergySet := { e := (r.map (·.eTarget)).getD 0 }
  { q with
      pdp := { q.pdp.flush with f := -1, fired := -1, assembled := -1, counted := -1, switchTag := 0, hmEnd := -1
                                lowmark := (r.map (·.resumeTh)).getD 0 }
      fire := { q.fire with shadow := e, pend := none, act := e, committed := none, lastFire := none, capSent := 100 }
      test := { q.test with pulse := none, lastAt := none }
      seam := { q.seam.ended with axisHolds := false, axisResume := false, axisRuns := false }
      sos := { q.sos with held := [], centre := none, missed := false, between := false, nearing := false, rerun := none }
      temp := { tsofs := q.temp.tsofs, tsgain := q.temp.tsgain } }

/-- A Tohevik port under a new structure: it trains where the image gives it records (R66, R233). -/
def Tlk.install (used : Bool) (k : Tlk) : Tlk :=
  if used then Tlk.train { inj := k.inj } else { inj := k.inj }

/-- The ADC domain starts: no channel is calibrated yet, and the first sample is 12.8 µs away (R305, R306). -/
def Cal.restart (c : Cal) : Cal :=
  { c with started := false, channel := none, samples := 0, wait := 2560
           chans := c.chans.map fun k => { k with done := false, subst := false } }

namespace State

/-- A time counter starts at zero where its domain starts, and the ADC with its start-up calibration (R74, R185, R306). -/
def startDomains (i : Image) (s : State) : State :=
  let s1 := if i.domain 1 && !s.top.image.domain 1 then s.startFab else s
  let s2 := if i.domain 0 && !s.top.image.domain 0 then s1.onTimes fun t => { t with loop := 0 } else s1
  if i.domain 6 && !s.top.image.domain 6 then s2.onCal Cal.restart else s2

/-- Sprigs, axes, slots and Tohevik ports of the image. -/
def installControl (i : Image) (s : State) : State :=
  let s1 := s.onFab fun b => { b with sprigs := Vector.ofFn fun n => { i.sprigAt n.val with tach := { start := s.times.fab }, peak := { seen := s.cal.samples } } }
  let s2 := s1.onAxes fun _ => Vector.ofFn fun n => i.axisAt n.val
  let s3 := s2.onCores fun v => mapIdx (fun c k => { k with slots := Vector.ofFn fun n => i.slotAt c n.val, running := none }) v
  s3.onTlks fun v => mapIdx (fun n k => k.install (i.nodes.any fun r => r.port = n)) v

/-- Ports of the image. -/
def installPorts (i : Image) (s : State) : State :=
  s.onPorts fun v => mapIdx (fun n q => q.install (i.profiles.find? fun r => r.port = n)) v

/-- The power map in force (R249). -/
def installBanks (i : Image) (s : State) : State :=
  s.onMem fun m =>
    { m with on := BitVec.ofNat 16 (i.powerMap s.sys.variant).1, ret := BitVec.ofNat 16 (i.powerMap s.sys.variant).2 }.applyBanks

/-- The limits that the caps in force give the seam slots (R153). -/
def installLimits (s : State) : State :=
  ((List.finRange 8).foldl (fun t n => t.onSeamGen n fun g => { g with vlim := s.seamLimit n }) s).onPorts fun v =>
    mapIdx (fun n q => { q with fire := { q.fire with capSent := ((fin? 4 n).map s.cap).getD 100 } }) v

/-- Every block switches to an image's structure (R66, R67); the start-up regime ends (R298). -/
def installImage (i : Image) (s : State) : State :=
  let s1 := (s.startDomains i).onTop fun t => { t with image := i }
  let s2 := ((s1.installControl i).installPorts i).installBanks i
  let s3 := s2.onFlt fun f => { f with react := Vector.ofFn fun n => i.reactOf n.val }
  s3.installLimits.changeRegime fun t => t.onThm fun h => { h with startup := false }

/-- The staged and the active slot exchange their roles (R42). -/
def swapSlots (s : State) : State := s.onMem fun m => { m with staged := m.active, active := m.staged }

/-! ## Validation -/

/-- Bytes a validation reads of the staged slot (R64): those of TOTAL_LEN where it is readable and in range, else the first twelve. -/
def validationLength (s : State) : Nat :=
  let r := s.mem.read 7 0 12
  let total := u32 (r.bytes.map BitVec.toNat) 8
  let readable := [8, 9, 10, 11].all fun k => (s.mem.readByte 7 k).2 != EccResult.uncorrectable
  if readable && totalInRange total then total else 12

/-- Offsets of the uncorrectable bytes among the first `n` of the staged slot: they lie among its upset bytes. -/
def stagedBad (n : Nat) (s : State) : List Nat :=
  (s.mem.staged.upsets.map (·.1)).filter fun a => decide (a < n) && (s.mem.readByte 7 a).2 == EccResult.uncorrectable

/-- The verdict on the staged slot with the bytes read. -/
def judgeStaged (s : State) : Option Reject × Image × ReadResult :=
  let n := s.validationLength
  let r := s.mem.read 7 0 n
  let b := r.bytes.map BitVec.toNat
  (imageVerdict b (s.stagedBad n) s.sys.variant s.sys.ref s.env.viof, parseImage b, r)

/-- A validation ends rejected (R64). -/
def rejectStaged (x : Reject) (s : State) : State :=
  (s.onTop fun t => { t with state := .idle, reject := x.1, offset := x.2, valDone := true, actAfterVal := false
                             prepared := none, stagedValid := false }).raise .management 0x60 11 0

/-- A validation ends accepted. -/
def acceptStaged (i : Image) (s : State) : State :=
  s.onTop fun t => { t with state := .idle, reject := 0, valDone := true, stagedValid := true, prepared := some i, actAfterVal := false }

/-! ## Activation -/

/-- ACTIVATE is refused, or ignored while STATE is not idle (R44, R66): source 0x64. A validation under way keeps the activation
that is to follow it (R45). -/
def refuseActivate (s : State) : State := (s.onTop fun t => { t with actRefused := true }).raise .management 0x64 11 0

/-- No DMA channel runs. -/
def dmaQuiet (s : State) : Bool := s.dma.chans.toList.all fun k => k.state != .running && k.state != .stopping

/-- The conditions of R66 the management plane sees itself; the ports and loops answer by quiescence. -/
def mayActivate (s : State) : Bool :=
  s.top.stagedValid && s.top.state == .idle && s.running && s.ladder.rung ≤ 1 && s.ladder.phase == .idle && s.dmaQuiet

/-- The management plane asks both planes for quiescence with TYPE 0x30 (R26); the data plane hears the target of a descent. -/
def askPlanes (purpose : QuiescePurpose) (s : State) : State :=
  ((s.onQuiesce fun _ => { purpose, control := .asked, data := .asked }).sendFields 3 typeQuiesceAsk [s.ladder.target]).sendFields 5
    typeQuiesceAsk [s.ladder.target]

/-- ACTIVATE with STATE idle (R66): the quiescence exchange starts, or the activation is refused. -/
def requestActivation (s : State) : State :=
  if s.mayActivate then (s.onTop fun t => { t with state := .activating, actAfterVal := false }).askPlanes .activation
  else s.refuseActivate

/-- The exchange is over: outputs hold at the old safe levels, running Tohevik ports send SAFE (R66). -/
def holdForSwap (s : State) : State :=
  (s.onFab fun b => { b with sprigs := b.sprigs.map Sprig.toSafe }).onTlks fun v =>
    v.map fun k => if k.state = .running then { k with state := .safe } else k

/-- The swap (R66, R67); the sense converters are calibrated at activation (R308). -/
def swapImage (i : Image) (s : State) : State :=
  ((s.installImage i).calibrateSense.swapSlots.onTop fun t =>
    { t with state := .idle, stagedValid := false, prepared := none, activeValid := true, swapDone := true, actId := i.id }).onQuiesce
      fun _ => {}

end State

end Sys2Proof.Machine
end

