-- ==== Sys2Proof/Machine/Clock.lean ====
section
/-!
DEFINITION. The passing of time: one FAB cycle of 5 ns, which an empty command queue lets pass (log entry 1). Whatever else
happens at an instant is a command of its own, in the order the queue gives.
-/

namespace Sys2Proof.Machine

/-- 5 ns of the three time counters (R24, R74, R185): four fabric-time steps while FAB runs, two cycles while LOOP runs, and 6/25 of a count
of the 48 MHz device time while MGMT runs. -/
def tickTimes (fab loop mgmt : Bool) (t : Times) : Times :=
  let t1 := { t with passed := t.passed + 1, fab := if fab then t.fab + 4 else t.fab, loop := if loop then t.loop + 2 else t.loop }
  if mgmt then
    if t.devFrac + 6 < 25 then { t1 with devFrac := t.devFrac + 6 }
    else { t1 with devFrac := t.devFrac + 6 - 25, dev := t.dev + 1 }
  else t1

/-- A step generator's phase grows by |rate|/16 step/s for 5 ns, in units of 1/3 200 000 000 step (R88). -/
def tickStepper (now : Time48) (n : Sprig) : Sprig :=
  if n.mode = 4 && n.active then
    { n with step := { n.step with phase := n.step.phase + n.step.rate.natAbs, pulse := n.step.pulse.filter fun e => later e now
                                   setup := n.step.setup.filter fun e => later e now || since now e < nsSteps n.p2 + 4 } }
  else n

/-- UPD of an axis record counts the updates, one per FAB cycle (R102); an axis that no sprig feeds keeps a record of zeros (R98). -/
def tickAxis (a : Axis) : Axis := if a.sprig < 96 then { a with upd := a.upd + 1 } else a

/-- While the port is disarmed a pending energy set becomes active in every cycle (R149). -/
def tickPort (q : Port) : Port := if q.arm.armed then q else { q with fire := q.fire.takeEnergy }

/-- A slot that does not run takes its pending coefficients in every cycle (R208). -/
def tickSlot (x : Slot) : Slot := if x.state = .running || x.state = .free then x else x.takeCoefs

def tickCore (k : Core) : Core := { k with slots := k.slots.map tickSlot }

namespace State

/-- The waiting edge of a start-of-scan or drop-detect sprig qualifies once its level has lasted (R92). -/
def tickSense (s : State) : State :=
  (List.finRange 96).foldl (fun t n =>
    match (t.sprig n).sos.candidate with
    | some c => if lasted (t.sprig n) c t.times.fab then t.senseEdge n c else t
    | none => t) s

/-- The FAB domain runs. -/
def fabRuns (s : State) : Bool := s.clocked && s.top.image.domain 1

/-- The LOOP domain runs. -/
def loopRuns (s : State) : Bool := s.clocked && s.top.image.domain 0

/-- A FAB cycle of the fabric and the position base. -/
def tickFab (s : State) : State :=
  if s.fabRuns then ((s.onAxes fun v => v.map tickAxis).onFab fun b => { b with sprigs := b.sprigs.map (tickStepper s.times.fab) }).tickSense else s

/-- A cycle of the loop cores. -/
def tickLoop (s : State) : State := if s.loopRuns then s.onCores fun v => v.map tickCore else s

/-- 5 ns of the ADC: every 12.8 µs each modulator has a new raw code (R305). -/
def tickAdc (s : State) : State :=
  if s.adcRuns then
    (if s.cal.wait ≤ 1 then
      (s.onCal fun c => { c with raw := Vector.ofFn fun i => Config.adcRaw i.val s.free, samples := c.samples + 1, wait := 2560 }).bumpFree
    else s.onCal fun c => { c with wait := c.wait - 1 })
  else s

/-- A cycle of the head ports: the strobes that have risen meanwhile have issued their drops (R178). -/
def tickPorts (s : State) : State :=
  if s.clocked then portNumbers.foldl (fun t p => t.countIssued p) (s.onPorts fun v => v.map tickPort) else s

/-- A SYS cycle of the scrubber and of the region under transparent test (R257, R260). -/
def tickMem (s : State) : State := (if s.clocked then s.testCycleMem else s).scrubCycle

end State

/-- One FAB cycle passes. -/
def tick (s : State) : State :=
  (s.onTimes (tickTimes s.fabRuns s.loopRuns s.mgmtClocked)).tickFab.tickLoop.tickAdc.tickPorts.tickMem

end Sys2Proof.Machine
end

