-- ==== Sys2Proof/Machine/DmaOps.lean ====
section
/-!
DEFINITION. Shared operations of the DMA engines (R262 to R271): descriptors and their check (R264, R265, R122), pacing (R123, R268,
R269), reads and writes of the three memories a descriptor names, lines that become valid (R120), replay (R126).
-/

namespace Sys2Proof.Machine

/-! ## Descriptors -/

/-- A descriptor from its 32 bytes (R264). -/
def Desc.ofBytes (b : List Byte) : Desc :=
  { ctrl := BitVec.ofNat 32 (leNat (b.take 4)), length := leNat ((b.drop 4).take 4), src := leNat ((b.drop 8).take 8)
    dst := leNat ((b.drop 16).take 8), tag := leNat ((b.drop 24).take 4), user := BitVec.ofNat 32 (leNat ((b.drop 28).take 4)) }

/-- OP: COPY, FILL, COMPARE. -/
def Desc.copies (d : Desc) : Bool := d.op = 1
def Desc.fills (d : Desc) : Bool := d.op = 2
def Desc.compares (d : Desc) : Bool := d.op = 3

/-- The descriptor reads host memory: its source, or the second operand of a COMPARE. -/
def Desc.readsHost (d : Desc) : Bool := (!d.fills && d.srck = 0) || (d.compares && d.dstk = 0)

/-- A number of a port. -/
def Desc.portOf (d : Desc) : Fin 4 := ⟨d.port % 4, Nat.mod_lt _ (by decide)⟩

/-- A field that must be zero is not (R264). -/
def Desc.reservedBits (d : Desc) : Bool :=
  fld d.ctrl 12 20 != 0 || (d.fills && 256 ≤ d.src) || (d.isPrint && d.dst != 0) || (!d.isPrint && d.tag != 0)

namespace State

/-- Bytes the descriptor moves. -/
def descBytes (d : Desc) (s : State) : Nat := if d.isPrint then d.length * (s.prof d.portOf).lineBytes else d.length

/-- A range of a memory kind is there: in the present memory, no bank of it off (R265). Host memory is not named with LOC = 1 or on
a variant without PCIe. -/
def rangeOk (loc : Bool) (kind a n : Nat) (s : State) : Bool :=
  match kind with
  | 0 => !loc && s.sys.variant.pcie && a + n ≤ 2 ^ 64
  | 1 => a + n ≤ s.sys.variant.banks * bankSize &&
      (List.range 16).all fun b => !(b * bankSize < a + n && a < b * bankSize + bankSize : Bool) || elem? s.mem.banks b == some .on
  | 2 => a + n ≤ 0x2000
  | _ => false

/-- A line-store range overlaps the region of an armed port. -/
def inArmedRegion (a n : Nat) (s : State) : Bool :=
  portNumbers.any fun p =>
    let r := s.prof p
    (s.port p).arm.armed && a < r.region + r.lsBanks * bankSize && r.region < a + n

/-- A print descriptor breaks a rule of R122: the port armed and fed by no other channel, the tags in sequence, nothing after END. -/
def printInvalid (c : Fin 64) (d : Desc) (s : State) : Bool :=
  let p := d.portOf
  let q := s.port p
  let first := q.pdp.channel.isNone
  let prev := if first then none else (s.chan c).lastPrint
  d.length = 0 || 65535 < d.length || !s.hasPort p || !q.arm.armed ||
    (q.pdp.channel.any fun k => k != c.val) || d.tag != (prev.map fun x => x.tag + x.length).getD 0 || prev.any Desc.isEnd

/-- The descriptor is invalid (R265). -/
def descInvalid (c : Fin 64) (d : Desc) (s : State) : Bool :=
  let loc := (s.chan c).loc
  let n := s.descBytes d
  !(d.copies || d.fills || d.compares) || d.reservedBits || d.srck = 3 || (d.isPrint && d.compares) ||
    (!d.fills && !s.rangeOk loc d.srck d.src n) ||
    (if d.isPrint then s.printInvalid c d
     else d.length = 0 || 0x1000000 < d.length || !s.rangeOk loc d.dstk d.dst n || (d.dstk = 1 && s.inArmedRegion d.dst n))

end State

/-! ## Pacing -/

/-- Bytes of the current descriptor that bursts already issued cover. -/
def Chan.issued (ch : Chan) : Nat := ch.done + ch.bursts.foldl (· + ·) 0

/-- The channel is between START and its next stop. -/
def Chan.live (ch : Chan) : Bool := ch.state = .running || ch.state = .stopping

namespace State

/-- Fill level of a port's ahead queue (R123). -/
def fillLevel (p : Fin 4) (s : State) : Int := (s.port p).pdp.v (s.prof p).sMax - (s.port p).pdp.f

/-- Fill level with the lines covered by bursts already issued counted as filled (R269). -/
def issuedLevel (c : Fin 64) (d : Desc) (s : State) : Int :=
  let p := d.portOf
  let q := s.port p
  let lines := (s.chan c).issued / max 1 (s.prof p).lineBytes
  let more := (List.range lines).map fun k => d.tag + k
  { q.pdp with valid := more.foldl insertNat q.pdp.valid }.v (s.prof p).sMax - q.pdp.f

/-- A port waits for a replay, which goes ahead of its channel's list (R126): of the tags asked for, or for a table that could not be
read. -/
def replayAsked (p : Fin 4) (s : State) : Bool :=
  let d := (s.port p).pdp
  (d.wanted != [] || d.replay || (s.port p).seam.ue) && !d.replayLost

/-- A print descriptor still feeds its port: the port has not disarmed meanwhile. -/
def feeds (c : Fin 64) (d : Desc) (s : State) : Bool := (s.port d.portOf).pdp.channel = some c.val

/-- A port the channel feeds waits for a replay or has one running: it is part of the channel's grant (R271). -/
def replaysFor (c : Fin 64) (s : State) : Bool :=
  portNumbers.any fun p => (s.port p).pdp.channel = some c.val && (s.replayAsked p || (s.port p).pdp.replay)

/-- The channel requests its engine (R123, R268): for a replay (R271); while it has a descriptor without a fill level; or while the port queue
that its descriptor still feeds is below its low mark or waits for its END line, the port's disarming withdrawing the request (R125). DESIGN
CHOICE: the request for a replay stands in every state of the channel (log entry 146). -/
def requests (c : Fin 64) (s : State) : Bool :=
  let ch := s.chan c
  s.replaysFor c ||
    (match ch.cur with
    | some d => ch.live &&
        (!d.isPrint || (s.feeds c d && (d.isEnd || decide (s.fillLevel d.portOf < (s.port d.portOf).pdp.lowmark))))
    | none => false)

/-- Channel `i` of an engine. -/
def chanOf (e : Fin 4) (i : Fin 16) : Fin 64 := ⟨16 * e.val + i.val, by omega⟩

/-- The next requesting channel in round-robin order after the one served last (R268). -/
def nextRequest (e : Fin 4) (s : State) : Option (Fin 16) :=
  let order := (List.finRange 16).map fun k => (⟨((s.engine e).lastServed + 1 + k.val) % 16, Nat.mod_lt _ (by decide)⟩ : Fin 16)
  order.find? fun i => s.requests (chanOf e i)

/-- The channel holds its engine's grant. -/
def granted (c : Fin 64) (s : State) : Bool := (s.engine (engineOf c)).granted = some (c.val % 16)

/-- The grant of a channel is over: at a stop, at the end of its list, at the high mark (R268), but not while a replay is part of it
(R271). -/
def grantOver (c : Fin 64) (s : State) : Bool :=
  let ch := s.chan c
  !s.replaysFor c &&
    (match ch.cur with
    | some d => !ch.live || (d.isPrint && decide (((s.prof d.portOf).highMark : Int) ≤ s.fillLevel d.portOf))
    | none => ch.state != .running || ch.dtail = ch.dhead)

/-- End the engine's grant where it is over. -/
def settleGrant (e : Fin 4) (s : State) : State :=
  match (s.engine e).granted.bind (fin? 16) with
  | some i => if s.grantOver (chanOf e i) then s.onEngine e fun g => { g with granted := none } else s
  | none => s

/-- Read bursts an engine has in flight (R262). -/
def readBursts (e : Fin 4) (s : State) : Nat :=
  (List.finRange 16).foldl (fun n i =>
    let ch := s.chan (chanOf e i)
    if ch.cur.any fun d => !d.fills then n + ch.bursts.length else n) 0

/-- Bytes that may be issued next: the descriptor's, within a burst, and to a port queue no further than the slot-reuse bound of R121
allows. -/
def burstSize (c : Fin 64) (d : Desc) (s : State) : Nat :=
  let ch := s.chan c
  let n := min 512 (s.descBytes d - ch.issued)
  if d.isPrint then
    let p := d.portOf
    let r := s.prof p
    let top := (s.port p).pdp.f - s.portWr p + r.ring + 1 - d.tag
    min n (top.toNat * r.lineBytes - ch.issued)
  else n

/-- The engine may issue a burst for the channel (R269). -/
def mayBurst (c : Fin 64) (d : Desc) (s : State) : Bool :=
  let ch := s.chan c
  ch.live && ch.fail = 0 && s.burstSize c d != 0 && (d.fills || s.readBursts (engineOf c) < 8) &&
    (!d.isPrint || (s.feeds c d && !s.replayAsked d.portOf &&
      decide (s.issuedLevel c d < (s.prof d.portOf).highMark)))

/-! ## Data -/

/-- MEMSEL of a memory kind: line store or DMA area. -/
def memOf (kind : Nat) : Nat := if kind = 1 then 0 else 6

/-- Bytes read from a memory kind, with the sources the read raises (R247, R253, R254), and whether any was uncorrectable. -/
def dmaRead (kind a n : Nat) (s : State) : List Byte × Bool × State :=
  if kind = 0 then (hostBytes s.dma.hostMem a n, false, s)
  else
    let r := s.mem.read (memOf kind) a n
    (r.bytes, r.uncorrectable != [], s.noteRead (memOf kind) r true)

/-- Bytes written to a memory kind. -/
def dmaWrite (kind a : Nat) (b : List Byte) (s : State) : State :=
  if kind = 0 then s.onDma fun d => { d with hostMem := hostWrite d.hostMem a b }
  else s.onMem fun m => m.writeBytes (memOf kind) a b

end State

/-! ## Lines -/

/-- Writes for a tag begin on its slot: another tag's line there is no longer valid (R120). -/
def Pdp.claim (ring tag : Nat) (d : Pdp) : Pdp :=
  { d with valid := d.valid.filter fun t => t = tag || t % max 1 ring != tag % max 1 ring }

/-- The line of a tag is whole. -/
def Pdp.validate (tag : Nat) (d : Pdp) : Pdp := { d with valid := insertNat d.valid tag }

namespace State

/-- Bytes of the lines a print descriptor brings, from byte `off` on: each byte goes to its line's slot, slots are claimed where the
write begins on them, lines whose last byte is written become valid (R118, R120). -/
def storeLines (d : Desc) (off : Nat) (b : List Byte) (good : Bool) (s : State) : State :=
  let p := d.portOf
  let r := s.prof p
  let lb := max 1 r.lineBytes
  let lines := (List.range (ceilDiv (off % lb + b.length) lb)).map fun k => off / lb + k
  lines.foldl (fun t k =>
    let lo := max off (k * lb)
    let hi := min (off + b.length) (k * lb + lb)
    let tag := d.tag + k
    let t1 := (t.onPort p fun q => { q with pdp := q.pdp.claim r.ring tag }).onMem fun m =>
      m.writeBytes 0 (r.slotAt tag + (lo - k * lb)) ((b.drop (lo - off)).take (hi - lo))
    if good && hi = k * lb + lb then t1.onPort p fun q => { q with pdp := q.pdp.validate tag } else t1) s

/-- Bytes of a descriptor's source from an offset: FILL's constant, or what the source memory holds. -/
def sourceBytes (d : Desc) (off n : Nat) (s : State) : List Byte × Bool × State :=
  if d.fills then (List.replicate n (BitVec.ofNat 8 d.src), false, s) else s.dmaRead d.srck (d.src + off) n

/-! ## Replay (R126, R271) -/

/-- The logged descriptor that holds a port's tag, of the channel that feeds the port. -/
def loggedFor (p : Fin 4) (tag : Nat) (s : State) : Option Desc :=
  ((s.port p).pdp.channel.bind (fin? 64)).bind fun c =>
    (s.chan c).log.find? fun d => d.port = p.val && d.tag ≤ tag && tag ≤ d.lastTag

/-- A replay fails (R126): source 0x24; the port stays held until it disarms. -/
def replayFails (p : Fin 4) (s : State) : State :=
  (s.onPort p fun q => { q with pdp := { q.pdp with replay := false, replayLost := true } }).raise .data 0x24 4 p.val

/-- One line read again from its descriptor's source and written to its slot (R271). -/
def replayLine (p : Fin 4) (d : Desc) (tag : Nat) (s : State) : State × Bool :=
  let lb := (s.prof p).lineBytes
  let x := s.sourceBytes d ((tag - d.tag) * lb) lb
  if x.2.1 then (x.2.2, false) else (x.2.2.storeLines d ((tag - d.tag) * lb) x.1 true, true)

/-- The record of a descriptor whose line was fetched again (R124, R126). -/
def markReplayed (p : Fin 4) (tag : Nat) (s : State) : State :=
  match (s.port p).pdp.channel.bind (fin? 64) with
  | some c => s.onChan c fun k => { k with owed := k.owed.map fun o =>
      if o.print && o.desc.tag ≤ tag && tag ≤ o.lastTag then { o with replayed := true } else o }
  | none => s

/-- Every asked tag in turn; whether all were read. -/
def replayTags (p : Fin 4) : List Nat → State → State × Bool
  | [], s => (s, true)
  | t :: rest, s =>
    match s.loggedFor p t with
    | none => (s, false)
    | some d =>
      let x := s.replayLine p d t
      if x.2 then (x.1.markReplayed p t).replayTags p rest else (x.1, false)

end State

end Sys2Proof.Machine
end

