-- ==== Sys2Proof/Machine/Dma.lean ====
section
/-!
DEFINITION. The commands of the DMA engines (R262 to R271) and of replay (R126).
-/

namespace Sys2Proof.Machine

/-! ## Channels -/

namespace State

/-- CTRL.START (R270): an idle, stopped or halted channel runs from DTAIL; with an empty list it is idle at once. -/
def startChan (c : Fin 64) (s : State) : State :=
  s.onChan c fun k => if k.live then k else { k with state := if k.dtail = k.dhead then .idle else .running }

/-- CTRL.STOP (R270). -/
def stopChan (c : Fin 64) (s : State) : State :=
  (s.onChan c fun k =>
    if k.state = .running then { k with state := if k.cur.isSome then .stopping else .stopped } else k).settleGrant (engineOf c)

end State

/-- DMA_START (R270). -/
def execDmaStart (ch : Fin 64) (s : State) : Res := .next (s.planeWrite (s.hasChan ch) (chanAddr ch.val 0) (State.startChan ch))

/-- DMA_STOP (R270). -/
def execDmaStop (ch : Fin 64) (s : State) : Res := .next (s.planeWrite (s.hasChan ch) (chanAddr ch.val 0) (State.stopChan ch))

/-! ## Descriptors -/

/-- COUNT, AUX and MISMATCH of a descriptor that ends (R266): of a COMPARE what it found; bytes written otherwise; a print record has its
own. -/
def Chan.outcome (k : Chan) (o : Owed) : Owed :=
  if o.desc.compares then
    { o with mismatch := k.mismatches != 0, count := k.mismatches, aux := (k.firstMismatch.map (BitVec.ofNat 32)).getD 0xFFFFFFFF }
  else if o.desc.isPrint then o
  else { o with count := k.written }

namespace State

/-- The channel may start a descriptor (R263, R267): it runs, its list is not at its end, it owes fewer than 32 records and holds none
that is complete and cannot be posted. -/
def mayFetch (c : Fin 64) (s : State) : Bool :=
  let k := s.chan c
  k.state = .running && k.cur.isNone && k.dtail != k.dhead && k.owed.length < 32 &&
    !((k.owed.head?.any fun o => o.complete) && !k.room)

/-- The descriptor ends with a STATUS (R270): its record is owed, complete, and the channel halts. Mismatches found by then raise 0x22
(R264). -/
def failDesc (c : Fin 64) (status : Nat) (s : State) : State :=
  ((s.onChan c fun k => k.endDesc fun o => { k.outcome o with status := status, complete := true }).settleGrant (engineOf c)).raiseIf
    ((s.chan c).cur.any Desc.compares && (s.chan c).mismatches != 0) .data 0x22 3 c.val

/-- A descriptor that does not begin: it is owed and ends at once. -/
def rejectDesc (c : Fin 64) (d : Desc) (status : Nat) (s : State) : State := (s.onChan c fun k => k.begin d).failDesc c status

/-- A print descriptor begins: the channel feeds its port, the descriptor enters the replay log, END names the last tag (R122, R126). -/
def beginPrint (c : Fin 64) (d : Desc) (s : State) : State :=
  let first := (s.port d.portOf).pdp.channel.isNone
  let s1 := s.onChan c fun k =>
    let old := if first then k.log.filter fun x => x.port != d.port else k.log
    { k with log := (old ++ [d]).drop (old.length + 1 - 64), lastPrint := if first then none else k.lastPrint }
  s1.onPort d.portOf fun q =>
    { q with pdp := { q.pdp with channel := some c.val, endTag := if d.isEnd then some d.lastTag else q.pdp.endTag } }

/-- A fetched descriptor is checked and begins, or ends as invalid with source 0x20 (R265). -/
def takeDesc (c : Fin 64) (d : Desc) (s : State) : State :=
  if s.descInvalid c d then (s.rejectDesc c d 1).raise .data 0x20 3 c.val
  else
    let s1 := s.onChan c fun k => k.begin d
    if d.isPrint then s1.beginPrint c d else s1

/-- The fetch at DTAIL: from the DMA area with LOC = 1, an uncorrectable byte ending the descriptor with STATUS 0x04 (R254); from host
memory while the link serves it. Host memory on a variant without PCIe is an invalid descriptor (R265). -/
def fetchDesc (c : Fin 64) (s : State) : State :=
  let k := s.chan c
  if k.loc then
    let r := s.mem.read 6 ((k.dbase.toNat + 32 * k.dtail) % 0x2000) 32
    let s1 := s.noteRead 6 r true
    if r.uncorrectable != [] then s1.rejectDesc c (Desc.ofBytes r.bytes) 4 else s1.takeDesc c (Desc.ofBytes r.bytes)
  else if !s.sys.variant.pcie then (s.rejectDesc c (Desc.ofBytes []) 1).raise .data 0x20 3 c.val
  else if s.host.link = .l0 then s.takeDesc c (Desc.ofBytes (hostBytes s.dma.hostMem (k.dbase.toNat + 32 * k.dtail) 32))
  else s

end State

/-- DMA_DESCRIPTOR (R264, R265). -/
def execDmaDescriptor (ch : Fin 64) (s : State) : Res :=
  .next (if s.clocked && s.hasChan ch && s.mayFetch ch then s.fetchDesc ch else s)

/-! ## Grants and bursts -/

/-- DMA_GRANT (R268). -/
def execDmaGrant (eng : Fin 4) (s : State) : Res :=
  .next (if s.clocked && s.hasEngine eng.val then
    let s1 := s.settleGrant eng
    match (s1.engine eng).granted with
    | some _ => s1
    | none => match s1.nextRequest eng with
      | some i => s1.onEngine eng fun _ => { granted := some i.val, lastServed := i.val }
      | none => s1
  else s)

/-- The engine issues a burst for its granted channel. -/
def State.issueBurst (c : Fin 64) (s : State) : State :=
  match (s.chan c).cur with
  | some d => if s.mayBurst c d then s.onChan c fun k => { k with bursts := k.bursts ++ [s.burstSize c d] } else s
  | none => s

/-- DMA_BURST (R269). -/
def execDmaBurst (eng : Fin 4) (s : State) : Res :=
  .next (match (s.engine eng).granted.bind (fin? 16) with
    | some i => if s.clocked && s.hasEngine eng.val then s.issueBurst (State.chanOf eng i) else s
    | none => s)

namespace State

/-- A burst whose port has disarmed meanwhile (R125, R269): its data are discarded and counted; with the last one the descriptor ends
with TARGET WITHDREW. -/
def discardBurst (c : Fin 64) (n : Nat) (rest : List Nat) (s : State) : State :=
  let s1 := s.onChan c fun k =>
    { k with disc := satAdd 0xFFFFFFFF k.disc n, bursts := rest
             owed := k.owed.map fun o => if o.ended then o else { o with aux := o.aux + BitVec.ofNat 32 n, withdrew := true } }
  if rest = [] then s1.onChan c fun k => k.endDesc fun o => { o with withdrew := true, complete := true } else s1

/-- The burst leaves the channel with its bytes transferred, or with a STATUS. -/
def burstOver (c : Fin 64) (n written status : Nat) (rest : List Nat) (s : State) : State :=
  s.onChan c fun k => { k with bursts := rest, done := k.done + n, written := k.written + written
                               fail := if k.fail = 0 then status else k.fail }

/-- A COPY or FILL burst (R254, R264): uncorrectable source data give STATUS 0x04 and are not written; a posted write to host memory
that the link does not take gives STATUS 0x03 (R337). -/
def moveBurst (c : Fin 64) (d : Desc) (n : Nat) (rest : List Nat) (s : State) : State :=
  let off := (s.chan c).done
  let x := s.sourceBytes d off n
  if x.2.1 then x.2.2.burstOver c n 0 4 rest
  else if d.isPrint then (x.2.2.storeLines d off x.1 ((s.chan c).fail = 0)).burstOver c n n 0 rest
  else if d.dstk = 0 && s.host.link != .l0 then x.2.2.burstOver c n 0 3 rest
  else (x.2.2.dmaWrite d.dstk (d.dst + off) x.1).burstOver c n n 0 rest

/-- Places at which two byte lists differ, from an offset. -/
def mismatchesFrom : Nat → List Byte → List Byte → List Nat
  | k, a :: as, b :: bs => if a = b then mismatchesFrom (k + 1) as bs else k :: mismatchesFrom (k + 1) as bs
  | _, _, _ => []

/-- A COMPARE burst (R264). -/
def compareBurst (c : Fin 64) (d : Desc) (n : Nat) (rest : List Nat) (s : State) : State :=
  let off := (s.chan c).done
  let x := s.dmaRead d.srck (d.src + off) n
  let y := x.2.2.dmaRead d.dstk (d.dst + off) n
  let bad := mismatchesFrom off x.1 y.1
  if x.2.1 || y.2.1 then y.2.2.burstOver c n 0 4 rest
  else (y.2.2.onChan c fun k =>
    { k with mismatches := k.mismatches + bad.length, firstMismatch := k.firstMismatch.orElse fun _ => bad.head? }).burstOver c n 0 0 rest

end State

/-- What the record of a descriptor that has moved all its bytes shows (R266). -/
def Chan.finished (k : Chan) (d : Desc) (o : Owed) : Owed :=
  if d.isPrint then o else { k.outcome o with complete := true }

namespace State

/-- The grant ends with a descriptor without a fill level when another channel of the engine requests (R268). -/
def yieldGrant (c : Fin 64) (d : Desc) (s : State) : State :=
  let e := engineOf c
  let others := (List.finRange 16).any fun i => chanOf e i != c && s.requests (chanOf e i)
  if !d.isPrint && others && (s.engine e).granted = some (c.val % 16) then s.onEngine e fun g => { g with granted := none } else s

/-- The descriptor ends once nothing is in flight: with the STATUS of a failed burst, an END line that never came forgotten, or with all
its bytes moved (R264, R270); a mismatch raises 0x22. -/
def endIfMoved (c : Fin 64) (d : Desc) (s : State) : State :=
  let k := s.chan c
  if k.bursts != [] then s
  else if k.fail != 0 then
    let s1 := if d.isPrint && d.isEnd then s.onPort d.portOf fun q => { q with pdp := { q.pdp with endTag := none } } else s
    (s1.failDesc c k.fail).yieldGrant c d
  else if s.descBytes d ≤ k.done then
    let s1 := s.onChan c fun x => { x.endDesc (x.finished d) with lastPrint := if d.isPrint then some d else x.lastPrint }
    (s1.raiseIf (d.compares && k.mismatches != 0) .data 0x22 3 c.val).yieldGrant c d
  else s

/-- The oldest burst of a channel completes. -/
def completeBurst (c : Fin 64) (d : Desc) (n : Nat) (rest : List Nat) (s : State) : State :=
  if d.isPrint && !s.feeds c d then s.discardBurst c n rest
  else
    let s1 := (if d.compares then s.compareBurst c d n rest else s.moveBurst c d n rest).endIfMoved c d
    if d.isPrint then s1.pollSeam d.portOf else s1

end State

/-- DMA_BURST_COMPLETE (R269): a read of host memory completes while the link serves it. -/
def execDmaBurstComplete (ch : Fin 64) (s : State) : Res :=
  let k := s.chan ch
  .next (match k.cur, k.bursts with
    | some d, n :: rest =>
      if s.clocked && (!d.readsHost || s.host.link = .l0) then (s.completeBurst ch d n rest).settleGrant (State.engineOf ch) else s
    | _, _ => s)

/-! ## Records -/

/-- COMPLETION_RECORD_POST (R267): the oldest owed record, when complete, is posted, or raises 0x21 once while the ring has no room. -/
def execCompletionRecordPost (ch : Fin 64) (s : State) : Res :=
  let k := s.chan ch
  .next (if s.clocked && s.hasChan ch && (k.loc || s.host.link = .l0) then
    if k.postable.isSome then s.postRecord ch
    else if (k.owed.head?.any fun o => o.complete) && !k.room && !k.fullRaised then
      (s.onChan ch fun x => { x with fullRaised := true }).raise .data 0x21 3 ch.val
    else s
  else s)

def State.clearDisc (c : Fin 64) (s : State) : State := s.onChan c fun k => { k with disc := 0 }

/-- DMA_DISC_READ (R269). -/
def execDmaDiscRead (ch : Fin 64) (s : State) : Res :=
  .next (s.planeRead (s.hasChan ch) (chanAddr ch.val 0x30) (fun t => BitVec.ofNat 32 (t.chan ch).disc) (State.clearDisc ch))

/-! ## Replay -/

namespace State

/-- The port waits for a replay that can start: its tags are asked for, or a table could not be read, and its channel has no burst in
flight (R126) and holds its engine's grant (R271). -/
def replayDue (p : Fin 4) (s : State) : Bool :=
  let q := s.port p
  q.arm.armed && !q.pdp.replay && !q.pdp.replayLost && (q.pdp.wanted != [] || q.seam.ue) &&
    ((q.pdp.channel.bind (fin? 64)).map fun c => (s.chan c).bursts.isEmpty && s.granted c).getD true

/-- The grant of the channel that feeds a port ends where it is over. -/
def settleFeeder (p : Fin 4) (s : State) : State :=
  match (s.port p).pdp.channel.bind (fin? 64) with
  | some c => s.settleGrant (engineOf c)
  | none => s

/-- The replay starts where every asked tag is in the log, else it fails (R126). -/
def startReplay (p : Fin 4) (s : State) : State :=
  if (s.port p).pdp.wanted.all fun t => (s.loggedFor p t).isSome then
    s.onPort p fun q => { q with pdp := { q.pdp with replay := true } }
  else s.replayFails p

/-- The replay reads host memory. -/
def replayReadsHost (p : Fin 4) (s : State) : Bool :=
  (s.port p).pdp.wanted.any fun t => (s.loggedFor p t).any Desc.readsHost

/-- The replayed lines are valid and the cause clears (R126, R155). -/
def endReplay (p : Fin 4) (s : State) : State :=
  let x := s.replayTags p (s.port p).pdp.wanted
  if x.2 then
    (x.1.onPort p fun q => { q with pdp := { q.pdp with replay := false, wanted := [] }, seam := q.seam.mark .ue false }).pollSeam p
  else x.1.replayFails p

end State

/-- REPLAY_START (R126, R271). -/
def execReplayStart (port : Fin 4) (s : State) : Res :=
  .next (if s.clocked && s.replayDue port then (s.startReplay port).settleFeeder port else s)

/-- REPLAY_COMPLETE (R126). -/
def execReplayComplete (port : Fin 4) (s : State) : Res :=
  .next (if s.clocked && (s.port port).pdp.replay && (!s.replayReadsHost port || s.host.link = .l0) then (s.endReplay port).settleFeeder port else s)

/-! ## Completion timeout -/

namespace State

/-- The port whose running replay a channel serves from host memory. -/
def replayOf (c : Fin 64) (s : State) : Option (Fin 4) :=
  portNumbers.find? fun p => (s.port p).pdp.replay && (s.port p).pdp.channel = some c.val && s.replayReadsHost p

/-- The oldest burst of a channel fails (R337): STATUS 0x02. -/
def failBurst (c : Fin 64) (d : Desc) (n : Nat) (rest : List Nat) (s : State) : State :=
  if d.isPrint && !s.feeds c d then s.discardBurst c n rest
  else (s.burstOver c n 0 2 rest).endIfMoved c d

/-- What of a channel waits for a completion of the host: a burst, a replay, the fetch of a descriptor. -/
def completionFails (c : Fin 64) (s : State) : State :=
  let k := s.chan c
  match k.cur, k.bursts, s.replayOf c with
  | some d, n :: rest, _ => if d.readsHost then s.failBurst c d n rest else s
  | _, _, some p => (s.replayFails p).settleFeeder p
  | none, _, none => if !k.loc && s.sys.variant.pcie && s.mayFetch c then s.rejectDesc c (Desc.ofBytes []) 2 else s
  | _, _, _ => s

end State

/-- PCIE_COMPLETION_TIMEOUT (R337). -/
def execPcieCompletionTimeout (ch : Fin 64) (s : State) : Res :=
  .next (if s.clocked && s.hasChan ch then s.completionFails ch else s)

end Sys2Proof.Machine
end

