-- ==== Sys2Proof/Machine/Position.lean ====
section
/-!
DEFINITION. The commands of the position base (R98 to R112). Its registers belong to the control plane; the eight axes are
present on every variant.
-/

namespace Sys2Proof.Machine

/-- A change of FWD (R99); the reserved value and a write while a bound port is armed are ignored. -/
def State.writeFwd (n : Fin 8) (fwd : Nat) (s : State) : State :=
  if fwd = 3 || s.axisArmed n || fwd = (s.axis n).fwd then s
  else s.onAxis n fun a => { a.rebased (s.axisCount n) with fwd := fwd }

/-- POS_FWD_WRITE (R99). -/
def execPosFwdWrite (axis : Fin 8) (fwd : BitVec 2) (s : State) : Res :=
  .next (s.planeWrite true (posAddr axis.val 0) (State.writeFwd axis fwd.toNat))

/-- A POSLO read latches the record (R102). -/
def State.readPosLo (n : Fin 8) (s : State) : State :=
  s.onAxis n fun a => { a with latch := a.latched (s.axisCount n) s.times.fab }

def State.posLo (n : Fin 8) (s : State) : Word := (s.axis n).posLoWord (s.axisCount n) s.times.fab

/-- POSLO_READ (R102). -/
def execPosloRead (axis : Fin 8) (s : State) : Res :=
  .next (s.planeRead true (posAddr axis.val 8) (State.posLo axis) (State.readPosLo axis))

/-- EXC_DEPTH_READ (R106): the deepest excursion, which clears. -/
def execExcDepthRead (axis : Fin 8) (s : State) : Res :=
  .next (s.planeRead true (posAddr axis.val 0x20) (fun t => BitVec.ofNat 32 (t.axis axis).depth)
    fun t => t.onAxis axis fun a => { a with depth := 0 })

/-- AXIS_STALL (R104), where no fresh edge has arrived within 4·b. -/
def execAxisStall (axis : Fin 8) (s : State) : Res :=
  .next (s.onAxis axis fun a =>
    if s.clocked && a.tracking && !a.stalled && a.exceeds 4 (a.quiet s.times.fab) then { a with stalled := true, stall := true }
    else a)

/-- EXCURSION_LONG (R106), where an excursion has lasted longer than 8·b of a full window. -/
def execExcursionLong (axis : Fin 8) (s : State) : Res :=
  .next (s.onAxis axis fun a =>
    match a.exc with
    | some t => if s.clocked && a.full && a.exceeds 8 (since s.times.fab t) then { a.emptied with exclong := true } else a
    | none => a)

namespace State

/-- The sense in which the lines of a port follow one another on its axis. -/
def travelUp (p : Fin 4) (n : Fin 8) (s : State) : Bool :=
  if (s.prof p).scan then (((s.port p).sos.anchorOf (s.port p).nextLine).map (·.up)).getD true else (s.axis n).fwd != 2

/-- A line the seam in progress, if any, still lets the port commit (R156, R160). -/
def lineAllowed (p : Fin 4) (s : State) : Bool :=
  let q := s.port p
  match q.seam.state with
  | 0 => true
  | 1 | 2 => q.seam.stopFrom.all (fun n => decide (q.nextLine < n)) && decide ((q.nextLine : Int) ≤ q.seam.line)
  | 4 => true
  | _ => false

/-- The port has a next line to commit: armed, not disarming, no committed line waiting, the line served by an anchor. -/
def linePending (p : Fin 4) (s : State) : Bool :=
  let q := s.port p
  q.arm.armed && !q.arm.disarming && (q.fire.committed.map (·.fired)).getD true && q.anchored (s.prof p) q.nextLine &&
    s.lineAllowed p && s.clocked

/-- The axis has reached the next line's fire position. -/
def lineReached (p : Fin 4) (n : Fin 8) (s : State) : Bool :=
  match (s.port p).sos.linePos (s.prof p) (s.port p).nextLine with
  | some x => decide (0 ≤ past (s.travelUp p n) (s.axisPos n) x)
  | none => false

end State

/-- AXIS_UNSETTLED_AT_LINE (R105): the port fires nothing and starts a seam; the stop line is the last line fired, or the one before
the line due. -/
def execAxisUnsettledAtLine (port : Fin 4) (s : State) : Res :=
  .next (match s.portAxis port with
    | some n =>
      let q := s.port port
      if s.linePending port && !s.axisSettled n && s.lineReached port n then
        s.seamCause port .unset (if 0 ≤ q.pdp.fired then q.pdp.fired else (q.nextLine : Int) - 1)
      else s
    | none => s)

/-- The axis has passed the window of the expected anchor without an anchor (R112): in scan mode it was short of the window's end since the
last sweep. -/
def State.sosOverdue (p : Fin 4) (n : Fin 8) (s : State) : Bool :=
  let q := s.port p
  q.arm.armed && q.sos.held != [] && !q.sos.missed &&
    (if (s.prof p).scan then q.sos.between && q.sos.nearing else q.sos.lines != 0) && s.pastWindow p n

/-- The last line of the latest anchor, or in scan mode the sweep boundary (R112). -/
def State.sosStopLine (p : Fin 4) (s : State) : Int :=
  let q := s.port p
  if (s.prof p).scan then q.pdp.f
  else ((q.sos.held.getLast?.map fun a => ((a.first + q.sos.lines : Nat) : Int)).getD 0) - 1

/-- SOS_MISSING (R112): source 0x36 and a seam. -/
def execSosMissing (port : Fin 4) (s : State) : Res :=
  .next (match s.portAxis port with
    | some n =>
      if s.clocked && s.sosOverdue port n then
        ((s.onPort port fun q => { q with sos := { q.sos with missed := true } }).raise .data 0x36 4 port.val).seamCause port .sos
          (s.sosStopLine port)
      else s
    | none => s)

end Sys2Proof.Machine
end

