-- ==== Sys2Proof/Machine/PrintPath.lean ====
section
/-!
DEFINITION. The commands of the print data path, of firing and of arming: lines (R114, R128, R143), mask sets (R136), the health test
(R138), energy (R149), the watchdog (R151), the head temperature (R170), host seams (R155), arming (R182, R183).
-/

namespace Sys2Proof.Machine

namespace State

/-- A write to a register of the PDP block or of a head port. -/
def pdpWrite (p : Fin 4) (off : Nat) (f : State → State) (s : State) : State := s.planeWrite (s.hasPort p) (pdpAddr p.val off) f
def hptWrite (p : Fin 4) (off : Nat) (f : State → State) (s : State) : State := s.planeWrite (s.hasPort p) (hptAddr p.val off) f
def pdpRead (p : Fin 4) (off : Nat) (w : State → Word) (f : State → State) (s : State) : State :=
  s.planeRead (s.hasPort p) (pdpAddr p.val off) w f
def hptRead (p : Fin 4) (off : Nat) (w : State → Word) (f : State → State) (s : State) : State :=
  s.planeRead (s.hasPort p) (hptAddr p.val off) w f

/-! ## Committing a line -/

/-- Distance from the axis to the next line's fire position in the direction of motion, 1/64 count. -/
def lineDistance (p : Fin 4) (n : Fin 8) (s : State) : Option Int :=
  ((s.port p).sos.linePos (s.prof p) (s.port p).nextLine).map fun x =>
    if (s.axis n).velocity < 0 then s.axisPos n - x else x - s.axisPos n

/-- t_s − t_k is below a time in ns (R114). -/
def dueWithin (n : Fin 8) (d : Int) (ns : Nat) (s : State) : Bool :=
  decide (d * 1000000000 < 4 * ((s.axis n).velocity.natAbs * ns : Nat))

/-- The fire instant of the next line and whether it is late: t_s rounded to the nearest step, ties later, not before the earliest
placeable instant (R114), nor nearer than 1 / FIRE_MAX to the line before (R145). -/
def fireInstant (p : Fin 4) (n : Fin 8) (d : Int) (s : State) : Time48 × Bool :=
  let r := s.prof p
  let now := s.times.fab
  let tooNear := s.dueWithin n d (r.latW + 15) || (s.axis n).velocity = 0
  let steps := if tooNear then nsSteps (r.latW + 15) else (divNearest (d * 200000000) (s.axis n).velocity.natAbs).toNat
  let least := ((s.port p).fire.lastFire.map fun t => ceilDiv 800000000 (max 1 r.fireMax) - since now t).getD 0
  (now + BitVec.ofNat 48 (max steps least), tooNear || decide (steps < least))

/-- The margin check of R121 at the commit of line F: below STOP_TH, source 0x23 and a data-late seam with the stop line of R156; in
scan mode only at the last line of a sweep (R162). -/
def checkMargin (p : Fin 4) (s : State) : State :=
  let q := s.port p
  let r := s.prof p
  let f := q.pdp.f
  match q.pdp.margin r.sMax with
  | some m =>
    if decide (m < r.stopTh) && !q.seam.late && (!r.scan || (f + 1) % q.sos.lines = 0) then
      (s.raise .data 0x23 4 p.val).seamCause p .late (if r.scan then f else min (q.pdp.v r.sMax) (f + nDec r (s.portSeamRec p)))
    else s
  | none => s

/-- The next line commits (R114, R145, R146): its fire instant and width are fixed, and F takes its tag; the resume line ends the
seam and leaves an F already reached (R159, R163). -/
def commitLine (p : Fin 4) (n : Fin 8) (d : Int) (vhs : List SenseSample) (s : State) : State :=
  let line := (s.port p).nextLine
  let t := s.fireInstant p n d
  let r := s.prof p
  let f := (s.senseSupply p s.times.fab vhs (s.port p).fire.takeEnergy).computeWidth r (s.port p).temp.t 100
  ((s.countStrobes p r.strobes).onPort p fun q =>
    let resume := q.seam.state = 4
    let c : Committed := { line, tFire := t.1, width := f.width, late := t.2, fromGroup := if resume then q.seam.grp else 0 }
    { q with fire := { f with committed := some c, lastFire := some t.1 }
             pdp := { q.pdp with f := max q.pdp.f line }
             seam := if resume then q.seam.ended else q.seam }).checkMargin p

/-- Data late for a line: 0x23 and a seam at the last committed line (R121). -/
def tagsLate (p : Fin 4) (s : State) : State :=
  let q := s.port p
  if q.seam.late || q.seam.ue then s else (s.raise .data 0x23 4 p.val).seamCause p .late q.pdp.f

/-- The next line in its commit cycle: it commits once its tags are valid and it is assembled. -/
def lineDue (p : Fin 4) (n : Fin 8) (d : Int) (vhs : List SenseSample) (s : State) : State :=
  let line := (s.port p).nextLine
  if (s.port p).tagsValid (s.prof p) line then
    let s1 := if (s.port p).pdp.asm.any fun a => a.line = line then s else s.assembleLine p line
    if (s1.port p).pdp.asm.any fun a => a.line = line then s1.commitLine p n d vhs else s1
  else s.tagsLate p

end State

/-- LINE_COMMIT (R114): in a cycle in which the axis is settled, the line pending and its fire instant less than LAT_W + 20 ns away. -/
def execLineCommit (port : Fin 4) (vhs : List SenseSample) (s : State) : Res :=
  .next (match s.portAxis port with
    | some n =>
      match s.lineDistance port n with
      | some d =>
        if s.linePending port && s.axisSettled n && s.dueWithin n d ((s.prof port).latW + 20) then s.lineDue port n d vhs else s
      | none => s
    | none => s)

/-! ## Firing a line -/

/-- The port after its committed line has fired (R143): the shift of the next line starts as the latch falls; DONE after the tail (R128), HMBUSY's end (R136), the sweep's end (R108). -/
def Port.firedLine (r : Profile) (c : Committed) (q : Port) : Port :=
  let q1 : Port :=
    { q with fire := { q.fire with committed := some { c with fired := true }, shiftAt := c.tFire }
             pdp := { q.pdp with fired := c.line
                                 asm := q.pdp.asm.filter fun a => decide (c.line ≤ a.line)
                                 hmbusy := q.pdp.hmbusy && decide ((c.line : Int) < q.pdp.hmEnd)
                                 done := q.pdp.done || q.pdp.lastLine r == some c.line }
             sos := { q.sos with between := q.sos.between || (r.scan && (c.line + 1) % q.sos.lines = 0) } }
  if q.seam.state = 0 then q1 else { q1.noteResume with seam := { q1.noteResume.seam with grp := 0 } }

namespace State

/-- The line's LATE flag goes to the records of the descriptors whose lines it fires (R114, R124). -/
def flagLate (p : Fin 4) (line : Nat) (s : State) : State :=
  let tags := (s.port p).tagsOf (s.prof p) line
  let mark (o : Owed) : Owed :=
    if o.print && tags.any (fun t => decide (o.desc.tag ≤ t ∧ t ≤ o.lastTag)) then { o with late := true } else o
  s.onFeeder p fun ch => { ch with owed := ch.owed.map mark }

/-- The committed line fires; the drops of a strobe count as it rises (R178). -/
def fireLine (p : Fin 4) (c : Committed) (s : State) : State :=
  let r := s.prof p
  let q := s.port p
  let s1 := if c.late then s.flagLate p c.line else s
  let s2 := s1.onPort p (Port.firedLine r c)
  (s2.onFeeder p (Chan.settle r q.sos.lines c.line)).countIssued p

end State

/-- LINE_FIRE (R143), at the committed instant. -/
def execLineFire (port : Fin 4) (s : State) : Res :=
  .next (match (s.port port).fire.committed with
    | some c => if s.clocked && !c.fired && decide ((c.tFire - s.times.fab).toInt ≤ 0) then s.fireLine port c else s
    | none => s)

/-- The assembler takes its next line: at most two beyond F, within the job, its tags valid, no seam in its way (R128, R136). -/
def State.mayAssemble (p : Fin 4) (line : Nat) (s : State) : Bool :=
  let q := s.port p
  let r := s.prof p
  s.clocked && q.arm.armed && (s.profile p).isSome && decide ((line : Int) ≤ q.pdp.f + 2) &&
    (match q.pdp.lastLine r with
      | some e => decide (line ≤ e)
      | none => true) && (!r.scan || q.anchored r line) && q.tagsValid r line && s.lineAllowed p &&
    !(1 ≤ q.seam.state && q.seam.state ≤ 2 && decide (q.seam.line < line))

/-- LINE_ASSEMBLE (R128). -/
def execLineAssemble (port : Fin 4) (s : State) : Res :=
  let line := ((s.port port).pdp.assembled + 1).toNat
  .next (if s.mayAssemble port line then s.assembleLine port line else s)

/-! ## Mask sets (R136) -/

/-- A commit of R136 is refused. -/
def Port.maskRefused (r : Profile) (q : Port) : Bool :=
  let d := q.pdp
  d.pend.isSome || d.hmbusy || (q.arm.armed &&
    (decide ((d.applytag.toNat : Int) ≤ d.assembled) || (r.scan && (d.applytag.toNat % q.sos.lines != 0 ||
      decide ((d.applytag.toNat / q.sos.lines : Nat) ≤ (d.assembled / q.sos.lines : Int) ∧ 0 ≤ d.assembled)))))

def Port.commitMasks (r : Profile) (swap : Bool) (q : Port) : Port :=
  if q.maskRefused r then { q with pdp := { q.pdp with cerr := true } }
  else if q.arm.armed then { q with pdp := { q.pdp with pend := some ⟨q.pdp.masksel, q.pdp.applytag.toNat, swap⟩ } }
  else { q with pdp := { q.pdp.applySet q.pdp.masksel swap with switchTag := 0 } }

def Port.discardMasks (q : Port) : Port := { q with pdp := { q.pdp with pend := none } }

def execPdpCommit (port : Fin 4) (s : State) : Res :=
  .next (s.pdpWrite port 0x20 fun t => t.onPort port (Port.commitMasks (s.prof port) false))

def execPdpCommitSwap (port : Fin 4) (s : State) : Res :=
  .next (s.pdpWrite port 0x20 fun t => t.onPort port (Port.commitMasks (s.prof port) true))

def execPdpDiscard (port : Fin 4) (s : State) : Res := .next (s.pdpWrite port 0x20 fun t => t.onPort port Port.discardMasks)

/-- A LOWMARK write (R123): from STOP_TH + 1 to HIGH_MARK − 1, which a port without a profile does not have. -/
def State.writeLowmark (p : Fin 4) (low : Nat) (s : State) : State :=
  let r := s.prof p
  s.onPort p fun q =>
    if (s.profile p).isSome && r.stopTh + 1 ≤ low && low + 1 ≤ r.highMark then { q with pdp := { q.pdp with lowmark := low } }
    else { q with pdp := { q.pdp with cerr := true } }

def execPdpLowmarkWrite (port : Fin 4) (low : BitVec 16) (s : State) : Res :=
  .next (s.pdpWrite port 0x14 (State.writeLowmark port low.toNat))

/-- UNPL_READ (R135). -/
def execUnplRead (port : Fin 4) (s : State) : Res :=
  .next (s.pdpRead port 0x30 (fun t => BitVec.ofNat 32 (t.port port).pdp.unpl)
    fun t => t.onPort port fun q => { q with pdp := { q.pdp with unpl := 0 } })

/-! ## Health test -/

/-- TEST.GO (R138). -/
def State.startTest (p : Fin 4) (s : State) : State :=
  if s.testAllowed p then
    (s.onPort p fun q =>
      { q with test := { q.test with busy := true, visited := 0, missing := [], edges := [], lastAt := none, pulse := none } }).leaveQuiet .data
  else s.onPort p fun q => { q with pdp := { q.pdp with cerr := true } }

def execHealthTestGo (port : Fin 4) (s : State) : Res := .next (s.pdpWrite port 0x34 (State.startTest port))

/-- HEALTH_TEST_CYCLE (R138): the cycle's fire instant and the conversions of the supply, once the pulse and what judges it are over. -/
def execHealthTestCycle (port : Fin 4) (fireAt : Time48) (samples : List SenseSample) (s : State) : Res :=
  let x := s.testPulse port fireAt samples
  .next (match s.testHealthy port x samples with
    | some ok => if s.clocked && (s.port port).test.busy && State.testOnTime (s.port port).test fireAt then s.testCycle port fireAt x ok samples else s
    | none => s)

/-- TEST.ABORT (R141). -/
def Port.abortTest (q : Port) : Port :=
  if q.test.busy then { q with test := { q.test with busy := false, aborted := true } } else q

def execHealthTestAbort (port : Fin 4) (s : State) : Res := .next (s.pdpWrite port 0x34 fun t => t.onPort port Port.abortTest)

/-! ## Energy, watchdog, temperature -/

/-- ECOMMIT.COMMIT (R149). While disarmed the pending set applies in the next cycle (Clock.lean). -/
def Port.commitEnergy (q : Port) : Port :=
  if q.fire.shadow.ok then { q with fire := { q.fire with pend := some q.fire.shadow } }
  else { q with fire := { q.fire with cerr := true } }

def Port.discardEnergy (q : Port) : Port := { q with fire := { q.fire with pend := none } }

def execEnergyCommit (port : Fin 4) (s : State) : Res := .next (s.hptWrite port 0x218 fun t => t.onPort port Port.commitEnergy)

def execEnergyDiscard (port : Fin 4) (s : State) : Res := .next (s.hptWrite port 0x218 fun t => t.onPort port Port.discardEnergy)

def Fire.clampsWord (f : Fire) : Word := pack [(16, 16, f.clampHi), (0, 16, f.clampLo)]

def Port.clearClamps (q : Port) : Port := { q with fire := { q.fire with clampHi := 0, clampLo := 0 } }

/-- CLAMPS_READ (R146). -/
def execClampsRead (port : Fin 4) (s : State) : Res :=
  .next (s.hptRead port 0x224 (fun t => (t.port port).fire.clampsWord) fun t => t.onPort port Port.clearClamps)

/-- When strobe `k` of the port last rose: of its line outside a dry run, or of a test pulse. -/
def Port.roseAt (r : Profile) (now : Time48) (k : Nat) (q : Port) : Option Time48 :=
  match (if q.test.busy then q.test.pulse else none) with
  | some x => if x.strobe = k then some x.rise else none
  | none =>
    if q.arm.dryrun then none else q.fire.committed.bind fun c => if k < c.issued r now then some (c.rise r k) else none

/-- The watchdog may cut the strobe (R150): it has risen and been active for more than STB_MAX + 60 ns, no longer than the time since, while
the clocks that tell that time run. -/
def State.mayCut (p : Fin 4) (k active : Nat) (s : State) : Bool :=
  let r := s.prof p
  (s.profile p).isSome && k < r.strobes && r.stbMax + 60 < active &&
    ((s.port p).roseAt r s.times.fab k).any fun t => !s.clocked || 4 * active ≤ 5 * since s.times.fab t

/-- WATCHDOG_CUT (R151): CUT, the port held inactive and disarmed, source 0x30. -/
def execWatchdogCut (port : Fin 4) (strobe : Fin 4) (s : State) (active : Nat := 0) : Res :=
  .next (if s.mayCut port strobe.val active then
    let s1 := s.onPort port fun q => { q with fire := { q.fire with cut := q.fire.cut ||| (1#4 <<< strobe.val) } }
    ((s1.stopStrobes port).endArming port 1).raise .data 0x30 4 port.val
  else s)

/-- The sense converter's calibration of 30 µs is over (R308). -/
def State.senseFree (p : Fin 4) (s : State) : Bool := s.cal.senseAt[p.val].all fun t => 24000 ≤ since s.times.fab t

/-- TSCODE (R170): the mean of 64 calibrated codes, to nearest with ties up (log entry 141). -/
def State.tsMean (p : Fin 4) (ts : Vector (BitVec 12) 64) (s : State) : Nat :=
  (divNearest (ts.toList.foldl (fun n x => n + s.senseCode p x) 0 : Nat) 64).toNat

/-- The head temperature takes a published TSCODE (R170, R171): T = (TSCODE − TSOFS) × TSGAIN / 4096, rounded down (log entry 24). -/
def Temp.publish (code : Nat) (h : Temp) : Temp :=
  { h with tscode := code, valid := h.tsgain != 0 && decide (16 ≤ code ∧ code ≤ 4079)
           t := if h.tsgain = 0 then 0 else clampInt (-32768) 32767 (((code : Int) - h.tsofs) * h.tsgain / 4096) }

/-- HEAD_TEMP_PUBLISH (R170, R171): TSCODE, T and the latest supply code, then the levels. -/
def execHeadTempPublish (port : Fin 4) (ts : Vector (BitVec 12) 64) (s : State) (vhs : BitVec 12 := 0) : Res :=
  .next (if s.clocked && (s.profile port).isSome && s.senseFree port then
    let s1 := (s.onPort port fun q =>
      { q with temp := q.temp.publish (s.tsMean port ts), fire := { q.fire with vhsCode := s.senseCode port vhs } }).onCal fun c =>
        { c with senseAt := upd c.senseAt port fun _ => none }
    if (s1.port port).temp.valid then s1.tempLevels port else s1.tempInvalid port
  else s)

/-! ## Seams under host control -/

/-- SEAMCTL.PAUSE (R155). -/
def execSeamPause (port : Fin 4) (s : State) : Res :=
  .next (s.hptWrite port 0x250 fun t => t.seamCause port .pause (t.boundaryLine port))

/-- SEAMCTL.RELEASE (R155). -/
def State.releaseSeam (p : Fin 4) (s : State) : State :=
  (s.onPort p fun q => { q with seam := ((q.seam.mark .pause false).mark .rev false).mark .sos false }).pollSeam p

def execSeamRelease (port : Fin 4) (s : State) : Res := .next (s.hptWrite port 0x250 (State.releaseSeam port))

def execSeamcntRead (port : Fin 4) (s : State) : Res :=
  .next (s.hptRead port 0x254 (fun t => BitVec.ofNat 32 (t.port port).seam.count)
    fun t => t.onPort port fun q => { q with seam := { q.seam with count := 0 } })

/-! ## Arming -/

namespace State

/-- Start-of-scan settings of R113 fail. -/
def sosSettingsBad (p : Fin 4) (s : State) : Bool :=
  let q := (s.port p).sos
  let r := s.prof p
  q.ofs.toNat < r.sosWindow + 128 ||
    (!r.scan && q.lines != 0 && q.pitch.toNat ≤ (q.lines - 1) * r.linePitch + r.sosWindow)

/-- Row and scan geometry of R127 fails. -/
def geometryBad (p : Fin 4) (s : State) : Bool :=
  let q := s.port p
  let r := s.prof p
  r.nozzles % r.rows != 0 || (!r.scan && r.rows % r.redund != 0) || r.shiftLen < r.bits * ceilDiv r.nozzles r.lanes ||
    (r.scan && (q.sos.lines ≤ r.sMax || q.pdp.adv = 0 || q.pdp.ilace = 0 || 8 < q.pdp.ilace))

/-- VIOH lies in neither range of R166. -/
def viohBad (mv : Nat) : Bool := !(1620 ≤ mv && mv ≤ 1980) && !(2970 ≤ mv && mv ≤ 3630)

/-- The refusal reasons of R182, in table order. -/
def armReasons (p : Fin 4) (dryrun : Bool) (s : State) : List (Bool × Nat) :=
  let q := s.port p
  [(!s.top.activeValid || (s.profile p).isNone, 0x01),
   (s.top.state == .activating || s.flt.safe, 0x02),
   (q.fire.cut != 0, 0x03),
   (q.test.busy, 0x04),
   (!q.head.accepted && !dryrun, 0x05),
   (!q.temp.valid || q.temp.tsgain = 0 || q.temp.shut, 0x06),
   (s.sys.warn, 0x07),
   (viohBad s.env.vioh, 0x08),
   ((s.portAxis p).all fun n => (s.axis n).fwd = 0, 0x09),
   (s.sosSettingsBad p, 0x0A),
   (s.geometryBad p, 0x0B),
   ((s.prof p).scan && (s.prof p).stopTh < q.sos.lines, 0x0C)]

/-- The first reason that applies. -/
def armRefusal (p : Fin 4) (dryrun : Bool) (s : State) : Option Nat := ((s.armReasons p dryrun).find? (·.1)).map (·.2)

end State

/-- The port armed: windows empty, F −1, waiting for its first anchor (R182). -/
def Port.armed (now : Time48) (dryrun : Bool) (vioh : Nat) (q : Port) : Port :=
  { q with arm := { q.arm with armed := true, dryrun := dryrun, disarming := false }
           pdp := { q.pdp.flush with f := -1, fired := -1, assembled := -1, counted := -1, switchTag := 0, hmEnd := -1 }
           seam := { q.seam.ended with axisResume := false }
           fire := { q.fire with committed := none, lastFire := none, shiftAt := now, vioh := vioh }
           sos := { q.sos with held := [], centre := none, missed := false, between := false, nearing := false, rerun := none } }

/-- A write of HPTn_ARM with ARM = 1 (R182); to an armed port it is ignored. A live arming ends every injection (R241). -/
def State.armPort (p : Fin 4) (dryrun : Bool) (s : State) : State :=
  if (s.port p).arm.armed then s
  else
    let s1 := s.onPort p fun q => { q with arm := { q.arm with dryrunReg := dryrun } }
    match s.armRefusal p dryrun with
    | some why => s1.onPort p fun q => { q with arm := { q.arm with reason := why, refused := true } }
    | none =>
      let s2 := (s1.onPort p (Port.armed s.times.fab dryrun s.env.vioh)).leaveQuiet .data
      if dryrun then s2 else s2.stopInjections

def execArm (port : Fin 4) (dryrun : Bool) (s : State) : Res := .next (s.hptWrite port 0 (State.armPort port dryrun))

/-- A write with ARM = 0 (R183): line commits stop; a committed line still fires. -/
def Port.startDisarm (q : Port) : Port := if q.arm.armed then { q with arm := { q.arm with disarming := true } } else q

def execDisarm (port : Fin 4) (s : State) : Res := .next (s.hptWrite port 0 fun t => t.onPort port Port.startDisarm)

/-- The strobes of a committed line have ended. -/
def State.strobesOver (p : Fin 4) (s : State) : Bool :=
  ((s.port p).fire.committed.map fun c => c.over (s.prof p) s.times.fab).getD true

/-- DISARM_COMPLETE (R125, R183), once a committed line has fired its strobes. -/
def execDisarmComplete (port : Fin 4) (s : State) : Res :=
  .next (if (s.port port).arm.disarming && s.strobesOver port then s.endArming port 0 else s)

end Sys2Proof.Machine
end

