-- ==== Sys2Proof/Machine/Heads.lean ====
section
/-!
DEFINITION. The commands of heads and consumables (R172 to R181): presence, acceptance, usage commits, host transfers on the
sideband.
-/

namespace Sys2Proof.Machine

/-! ## Presence (R173) -/

/-- An acknowledged poll: a head that was absent is present and its acceptance starts. -/
def State.pollAck (p : Fin 4) (id : BitVec 64) (format nozzles : BitVec 16) (s : State) : State :=
  let s1 := s.onPort p fun q => { q with head := { q.head with misses := 0, present := true } }
  if (s.port p).head.present then s1
  else (s1.startAcceptance p).onPort p fun q => { q with head := q.head.identify id format nozzles }

/-- The head has gone: an armed port disarms, an acceptance or usage commit in progress ends, each raising 0x37. -/
def State.headGone (p : Fin 4) (s : State) : State :=
  let q := s.port p
  let s1 := (if q.arm.armed then s.stopStrobes p else s).endArming p 2
  let s2 := s1.onPort p fun k => { k with head := { k.head.gone with misses := 3, descentWait := false } }
  ((s2.raiseIf q.arm.armed .data 0x37 4 p.val).raiseIf (q.head.abusy || q.head.usage.isSome) .data 0x37 4 p.val).settleDescent

/-- A poll without acknowledgement: the third in a row means the head has gone. -/
def State.pollMiss (p : Fin 4) (s : State) : State :=
  let h := (s.port p).head
  let s1 := s.onPort p fun q => { q with head := { q.head with misses := min 3 (h.misses + 1) } }
  if h.present && 3 ≤ h.misses + 1 then s1.headGone p else s1

/-- SIDEBAND_POLL (R173). -/
def execSidebandPoll (port : Fin 4) (tries : List SbTry) (headId : BitVec 64) (hformat nozzles : BitVec 16) (s : State) : Res :=
  .next (if s.clocked && (s.profile port).isSome && (s.port port).head.detect then
    let s1 := s.onBus port fun h => [h.pollTxn]
    if acknowledged tries then s1.pollAck port headId hformat nozzles else s1.pollMiss port
  else s)

/-! ## Acceptance (R175 to R177) -/

/-- RESP_READY_POLL (R175). -/
def Head.pollReady (ready : Byte) (h : Head) : Head :=
  if h.abusy && !h.ready && h.pollsLeft != 0 then { h with pollsLeft := h.pollsLeft - 1, ready := ready == 1 } else h

/-- An acceptance that has not read the head's identity does so before it polls (R175). -/
def Head.readIdentity (id : BitVec 64) (hformat nozzles : BitVec 16) (h : Head) : Head :=
  if h.abusy && !h.identified then h.identify id hformat nozzles else h

def execRespReadyPoll (port : Fin 4) (ready : Byte) (s : State) (headId : BitVec 64 := 0) (hformat nozzles : BitVec 16 := 0) : Res :=
  .next (if s.clocked then
    (s.onPort port fun q => { q with head := (q.head.readIdentity headId hformat nozzles).pollReady ready }).onBus port fun h =>
      [h.txn 0x0040 [] 1]
  else s)

/-- HEAD_OPEN of the policy in force (R176, R327). -/
def State.headOpen (s : State) : Bool := (elem? s.otp.force 42).any fun w => w.getLsbD 0

/-- The head after acceptance with a result (R176, R179). -/
def Head.conclude (result : Nat) (isOpen : Bool) (entry : Option (BitVec 64 × Nat × BitVec 32)) (slotA slotB : BitVec 512)
    (h : Head) : Head :=
  let h1 := { h with abusy := false, authres := result, ready := false, pollsLeft := 0 }
  match h.keyStore, result with
  | some k, 1 => { h1.loadUsage k entry slotA slotB with accepted := true, opened := false }
  | _, _ =>
    if isOpen then { h1.loadOpen entry with accepted := true, opened := true } else { h1 with accepted := false, opened := false }

/-- Acceptance ends with a result: the head is accepted, accepted as open, or refused with source 0x34. -/
def State.concludeAcceptance (p : Fin 4) (result : Nat) (slotA slotB : BitVec 512) (s : State) : State :=
  let entry := (elem? s.mem.usage p.val).getD none
  let s1 := s.onPort p fun q => { q with head := q.head.conclude result s.headOpen entry slotA slotB }
  if (s1.port p).head.accepted then s1.keepUsage p else s1.raise .data 0x34 4 p.val

/-- ACCEPTANCE_END (R176), once a result applies. -/
def execAcceptanceEnd (port : Fin 4) (response : BitVec 256) (slotA slotB : BitVec 512) (s : State) : Res :=
  let h := (s.port port).head
  .next (if s.clocked && h.abusy && h.identified then
    match h.result (s.prof port) response slotA slotB with
    | some x => (s.onBus port fun h => [h.txn 0x0060 [] 32, h.txn 0x0080 [] 64, h.txn 0x00C0 [] 64]).concludeAcceptance port x slotA slotB
    | none => s
  else s)

/-- HCTRL.AUTH (R177): acceptance is repeated and reads the head's identity anew. Without a head there is nothing to repeat. -/
def State.repeatAuth (p : Fin 4) (s : State) : State :=
  let q := s.port p
  if q.arm.armed || q.head.abusy || q.head.usage.isSome then s.onPort p fun k => { k with head := { k.head with cerr := true } }
  else if q.head.present then s.startAcceptance p else s

def execHctrlAuth (port : Fin 4) (s : State) : Res := .next (s.hptWrite port 0x10 (State.repeatAuth port))

/-! ## Usage commits (R180, R181) -/

/-- HCTRL.USAGE (R180): refused with CERR for a head that has no usage record. -/
def State.requestUsage (p : Fin 4) (s : State) : State :=
  let h := (s.port p).head
  if h.accepted && !h.opened then s.triggerUsage p 3
  else s.onPort p fun k => { k with head := { k.head with cerr := true } }

def execHctrlUsage (port : Fin 4) (s : State) : Res := .next (s.hptWrite port 0x10 (State.requestUsage port))

/-- A commit ends: USEQ and the newest slot follow it, or 0x37 is raised. -/
def State.finishUsage (p : Fin 4) (op : UsageOp) (ok : Bool) (s : State) : State :=
  if ok then
    (s.onPort p fun q => { q with head := { q.head with usage := none, useq := op.seq, newestB := op.slotB } }).keepUsage p
  else (s.onPort p fun q => { q with head := { q.head with usage := none } }).raise .data 0x37 4 p.val

/-- What follows a commit: the pending one starts (R181), or the quiescence answer that waited goes. -/
def State.afterUsage (p : Fin 4) (s : State) : State :=
  match (s.port p).head.usagePend with
  | some c => (s.onPort p fun q => { q with head := { q.head with usagePend := none } }).startUsage p c
  | none => (s.onPort p fun q => { q with head := { q.head with descentWait := false } }).settleDescent

/-- The transactions of a usage commit (R180): four page writes of 16 bytes and the read-back of the slot. -/
def Head.usageTxns (op : UsageOp) (h : Head) : List SbTxn :=
  let slot := if op.slotB then 0x00C0 else 0x0080
  (List.range 4).map (fun k => h.txn (slot + 16 * k) (((leBytes 64 op.record.toNat).drop (16 * k)).take 16) 0) ++ [h.txn slot [] 64]

/-- USAGE_COMMIT_END (R180): it has succeeded where every page was written and the slot reads back what was written. -/
def execUsageCommitEnd (port : Fin 4) (written : Bool) (s : State) (readBack : BitVec 512 := 0) : Res :=
  .next (match (s.port port).head.usage with
    | some op =>
      if s.clocked then ((s.onBus port (Head.usageTxns op)).finishUsage port op (written && readBack == op.record)).afterUsage port else s
    | none => s)

/-! ## Host transfers (R174) -/

/-- The transfer is refused: a transaction of the port's own is in progress, or a write touches 0x0020 to 0x00FF. -/
def Head.sbRefused (h : Head) : Bool :=
  h.abusy || h.usage.isSome || (h.sbWrite && decide (h.sbAddr ≤ 0xFF ∧ 0x20 ≤ h.sbAddr + h.sbLen))

def Head.sbGo (h : Head) : Head :=
  if h.sbBusy then h else if h.sbRefused then { h with sbErr := true, sbDone := true } else { h with sbBusy := true, sbRun := (h.sbWrite, h.sbLen) }

/-- SBXFER.GO (R174). -/
def execSbTransfer (port : Fin 4) (s : State) : Res :=
  .next (s.hptWrite port 0x38 fun t => t.onPort port fun q => { q with head := q.head.sbGo })

/-- The transfer ends; a read that was acknowledged loads its LEN + 1 bytes. -/
def Head.sbEnd (ack : Bool) (data : Word) (h : Head) : Head :=
  { h with sbBusy := false, sbDone := true, sbErr := h.sbErr || !ack
           sbData := if ack && !h.sbRun.1 then BitVec.ofNat 32 (data.toNat % 2 ^ (8 * (h.sbRun.2 + 1))) else h.sbData }

/-- The host's transaction in progress (R174), HADDR and the data as its registers hold them. -/
def Head.hostTxn (h : Head) : SbTxn :=
  let n := h.sbRun.2 + 1
  if h.sbRun.1 then h.txn h.sbAddr ((leBytes 4 h.sbData.toNat).take n) 0 else h.txn h.sbAddr [] n

/-- SB_TRANSFER_DONE (R174). -/
def execSbTransferDone (port : Fin 4) (tries : List SbTry) (data : Word) (s : State) : Res :=
  .next (if s.clocked && (s.port port).head.sbBusy then
    (s.onBus port fun h => [h.hostTxn]).onPort port fun q => { q with head := q.head.sbEnd (acknowledged tries) data }
  else s)

/-- DROPSLO_READ (R178). -/
def State.latchDrops (p : Fin 4) (s : State) : State :=
  s.onPort p fun q => { q with head := { q.head with dropsHi := BitVec.ofNat 16 (q.head.drops / 2 ^ 32) } }

def execDropsloRead (port : Fin 4) (s : State) : Res :=
  .next (s.hptRead port 0x20 (fun t => BitVec.ofNat 32 (t.port port).head.drops) (State.latchDrops port))

end Sys2Proof.Machine
end

