-- ==== Sys2Proof/Machine/Operands.lean ====
section
/-!
DEFINITION. The operand forms of a host access: how the host bridge cuts it into aligned words (R30), the write of a W1C field (R31),
the injection control word that two blocks share (R241, R242).
-/

namespace Sys2Proof.Machine

/-- A piece of an access to register space (R30): the address of its aligned word, and the word's four bytes where the piece covers
all of them. -/
structure Piece where
  addr : Nat
  whole : Bool
  deriving DecidableEq, Repr, Inhabited

/-- The piece of the aligned word at `w` in an access of `n` bytes from `a`. -/
def pieceAt (a n w : Nat) : Piece := { addr := w, whole := a ≤ w && w + 4 ≤ a + n }

/-- The pieces of an access of `n` bytes from `a`, in ascending order: one for each aligned word it spans. -/
def pieces (a n : Nat) : List Piece :=
  if n = 0 then [] else (List.range ((a + n - 1) / 4 - a / 4 + 1)).map fun k => pieceAt a n (4 * (a / 4 + k))

/-- The word a whole piece of a write carries. -/
def wordOf (a : Nat) (bytes : List Byte) (p : Piece) : Word := BitVec.ofNat 32 (leNat ((bytes.drop (p.addr - a)).take 4))

/-- A flag after a write: W1C at a bit. -/
def w1c (w : Word) (bit : Nat) (old : Bool) : Bool := old && !w.getLsbD bit

/-- INJCTRL as it reads. -/
def Injector.word (i : Injector) : Word :=
  pack [flag 29 i.active, flag 28 i.cerr, (26, 2, i.kind), (24, 2, i.pattern), (20, 4, i.sel), (18, 2, i.nflip), (0, 16, i.n)]

/-- The fields an INJCTRL write sets, STOP and GO apart. -/
def Injector.writeFields (w : Word) (i : Injector) : Injector :=
  { i with cerr := w1c w 28 i.cerr, kind := fld w 26 2, pattern := fld w 24 2, sel := fld w 20 4, nflip := fld w 18 2, n := fld w 0 16 }

end Sys2Proof.Machine
end

