-- ==== Sys2Proof/Machine/RegsControl.lean ====
section
/-!
DEFINITION. The registers of the control plane by offset within their block: FAB, LPC, TLK, POS. For each: the word a read returns, what the
read does, what a write does.
-/

namespace Sys2Proof.Machine

/-! ## Sprigs -/

/-- FABn_CFG. -/
def Sprig.cfgWord (g : Sprig) : Word :=
  pack [(24, 8, g.adc), (16, 8, if g.mode = 3 || g.mode = 7 || g.mode = 0xA then g.p0 else 0xFF), (10, 2, g.gang), flag 9 g.wake,
    flag 8 g.loopOwned, (0, 8, g.mode)]

/-- TIN: the filtered levels of input terminals. -/
def Sprig.tinWord (g : Sprig) : Nat :=
  (List.range 4).foldl (fun m t => m + (if g.isInput t && g.tin.getLsbD t then 2 ^ t else 0)) 0

namespace State

/-- FABn_STAT. -/
def sprigStat (n : Fin 96) (s : State) : Word :=
  let g := s.sprig n
  pack [(28, 4, s.tout n), (24, 4, g.tinWord), flag 6 s.flt.safe, flag 5 g.holdLvl, flag 4 g.cerr, flag 2 g.active,
    flag 1 g.pend.isSome, flag 0 g.set]

/-- What a read of a sprig offset returns. -/
def sprigWord (n : Fin 96) (off : Nat) (s : State) : Word :=
  let g := s.sprig n
  match off with
  | 0x00 => g.cfgWord
  | 0x08 => s.sprigStat n
  | 0x0C => g.event.setWidth 32
  | _ =>
    if 0x10 ≤ off && off < 0x20 then (elem? g.shadow ((off - 0x10) / 4)).getD 0
    else if 0x20 ≤ off && off < 0x30 then (elem? g.act ((off - 0x20) / 4)).getD 0
    else if 0x30 ≤ off && off < 0x50 then g.measWord ((off - 0x30) / 4) else 0

def sprigRead (n : Fin 96) (off : Nat) (s : State) : State :=
  if 0x30 ≤ off && off < 0x50 then s.onSprig n (Sprig.measRead ((off - 0x30) / 4)) else s

/-- A FABn_COMMIT write (R75): COMMIT with DISCARD has no effect. -/
def writeCommit (n : Fin 96) (w : Word) (s : State) : State :=
  if w.getLsbD 0 && w.getLsbD 2 then s
  else if w.getLsbD 0 then s.commitSprig n (w.getLsbD 1)
  else if w.getLsbD 2 then s.discardSprig n else s

def sprigWriteReg (n : Fin 96) (off : Nat) (w : Word) (s : State) : State :=
  match off with
  | 0x04 => s.writeCommit n w
  | 0x08 => s.onSprig n fun g => { g with cerr := w1c w 4 g.cerr }
  | 0x0C => s.onSprig n fun g => { g with event := g.event &&& ~~~(w.setWidth 4) }
  | 0x10 => s.onSprig n (Sprig.writeShadow 0 w (s.mapHeld n.val))
  | 0x14 => s.onSprig n (Sprig.writeShadow 1 w (s.mapHeld n.val))
  | 0x18 => s.onSprig n (Sprig.writeShadow 2 w (s.mapHeld n.val))
  | 0x1C => s.onSprig n (Sprig.writeShadow 3 w (s.mapHeld n.val))
  | _ => s

/-! ## Pleach status -/

/-- A bit for each of 32 pins from `32 * k`. -/
def pinWord (k : Nat) (f : Nat → Bool) : Word :=
  (List.range 32).foldl (fun (w : Word) b => if 32 * k + b < 120 && f (32 * k + b) then w ||| (1#32 <<< b) else w) 0

/-- FAB_BANK. -/
def bankWord (s : State) : Word := pack ((List.range 4).map fun n => (2 * n, 2, s.top.image.banks.getD n 0))

def pleachWord (off : Nat) (s : State) : Word :=
  match off with
  | 0x8020 => s.bankWord
  | 0x8030 => s.fab.gcmask[0]
  | 0x8034 => s.fab.gcmask[1]
  | 0x8038 => s.fab.gcmask[2]
  | 0x8040 => s.times.fab.setWidth 32
  | 0x8044 => s.fab.timeHi.setWidth 32
  | 0x8048 => pack [flag 0 s.flt.safe]
  | _ =>
    if 0x8000 ≤ off && off < 0x8010 then pinWord ((off - 0x8000) / 4) fun p => s.pinLevel p
    else if 0x8010 ≤ off && off < 0x8020 then pinWord ((off - 0x8010) / 4) fun p => (s.pinDrive p).isSome else 0

def pleachRead (off : Nat) (s : State) : State := if off = 0x8040 then s.latchFabTime else s

/-- The bits of a group-commit mask word whose sprigs are present (R33). -/
def presentSprigs (k : Nat) (s : State) : Word :=
  BitVec.ofNat 32 (2 ^ min 32 (s.sys.variant.sprigs - 32 * k) - 1)

def pleachWriteReg (off : Nat) (w : Word) (s : State) : State :=
  match off with
  | 0x8030 => s.onFab fun b => { b with gcmask := b.gcmask.set 0 (w &&& s.presentSprigs 0) }
  | 0x8034 => s.onFab fun b => { b with gcmask := b.gcmask.set 1 (w &&& s.presentSprigs 1) }
  | 0x8038 => s.onFab fun b => { b with gcmask := b.gcmask.set 2 (w &&& s.presentSprigs 2) }
  | 0x803C => if w.getLsbD 0 then s.groupCommit else s
  | _ => s

/-! ## Position base -/

def posWord (n : Fin 8) (off : Nat) (s : State) : Word :=
  let a := s.axis n
  match off with
  | 0x00 => pack [(24, 8, a.sprig), flag 8 (s.top.image.profiles.any fun r => r.axis = n.val), (0, 2, a.fwd)]
  | 0x04 => pack [(0, 25, a.vmin)]
  | 0x08 => s.posLo n
  | 0x0C => a.latch.posHi
  | 0x10 => a.latch.vel
  | 0x14 => a.latch.hwm
  | 0x18 => a.latch.stat
  | 0x1C => a.eventWord
  | 0x20 => pack [(0, 16, a.depth)]
  | _ => 0

def posRead (n : Fin 8) (off : Nat) (s : State) : State :=
  match off with
  | 0x08 => s.readPosLo n
  | 0x20 => s.onAxis n fun a => { a with depth := 0 }
  | _ => s

def posWriteReg (n : Fin 8) (off : Nat) (w : Word) (s : State) : State :=
  match off with
  | 0x00 => s.writeFwd n (fld w 0 2)
  | 0x04 => s.onAxis n fun a => { a with vmin := fld w 0 25 }
  | 0x1C => s.onAxis n fun a => { a with ill := w1c w 3 a.ill, exclong := w1c w 2 a.exclong, stall := w1c w 1 a.stall, unset := w1c w 0 a.unset }
  | _ => s

end State

/-! ## Loop slots -/

def SlotState.code : SlotState → Nat
  | .parked => 0
  | .running => 1
  | .holding => 2
  | .free => 3

/-- An integer as a 32-bit register. -/
def word32 (x : Int) : Word := BitVec.ofNat 32 (twos 32 x)

namespace Slot

def statWord (x : Slot) : Word :=
  pack [(24, 8, x.epoch.toNat), flag 11 x.sensinv, flag 9 x.ts.active, flag 8 x.cerr, flag 7 x.miss, flag 3 x.set,
    flag 2 x.coefPend.isSome, (0, 2, x.state.code)]

def cfgWord (x : Slot) : Word :=
  pack [(28, 4, x.cfg.law), (24, 4, x.cfg.flags), (16, 6, x.fshift), (8, 6, x.eshift), (6, 2, x.ffsel), flag 5 x.supplyff,
    flag 4 x.velmode]

/-- The words of parameters, measurements and coefficient shadows (R208, R209). -/
def parWord (off : Nat) (x : Slot) : Word :=
  match off with
  | 0x20 => word32 x.coefShadow.kp
  | 0x24 => word32 x.coefShadow.ki
  | 0x28 => word32 x.coefShadow.kd
  | 0x2C => word32 x.coefShadow.kf
  | 0x30 => word32 x.coefShadow.outMin
  | 0x34 => word32 x.coefShadow.outMax
  | 0x38 => word32 x.coefShadow.iLim
  | 0x40 => word32 x.par.setpoint
  | 0x44 => word32 x.par.idref
  | 0x48 => pack [(0, 16, x.par.vnom)]
  | 0x4C => pack [(16, 16, twos 16 x.par.auxofs), (0, 16, twos 16 x.par.inofs)]
  | 0x50 => pack [(16, 8, x.par.poles), (0, 4, x.par.encsel)]
  | 0x54 => pack [(0, 24, x.par.cpr)]
  | 0x58 => x.par.angofs
  | 0x5C => word32 x.par.malpha
  | 0x60 => word32 x.par.mgain
  | 0x64 => pack [(16, 16, twos 16 x.par.tamb), (0, 16, x.par.mdev)]
  | 0x68 => word32 x.integ
  | 0x6C => word32 x.outLast
  | 0x70 => word32 x.errLast
  | _ => 0

/-- The words of generator, test signal and migration. -/
def genWord (off : Nat) (x : Slot) : Word :=
  match off with
  | 0x80 => pack [(0, 2, x.gen.regOp)]
  | 0x84 => BitVec.ofNat 32 (twos 40 x.gen.regTarget % 2 ^ 32)
  | 0x88 => pack [(0, 8, twos 40 x.gen.regTarget / 2 ^ 32)]
  | 0x8C => word32 x.gen.regVel
  | 0x90 => BitVec.ofNat 32 x.gen.regAcc
  | 0x94 => BitVec.ofNat 32 x.gen.regJerk
  | 0x98 => pack [flag 5 x.gen.held.isSome, flag 4 (x.gen.seam != .none), flag 3 x.gen.clip, flag 2 x.gen.arrived, flag 0 x.gen.busy]
  | 0x9C => word32 (x.gen.v / 65536)
  | 0xC0 => pack [(28, 2, x.ts.kind), flag 27 x.ts.point, (20, 4, x.ts.order), (12, 8, x.ts.holdn)]
  | 0xC4 => word32 x.ts.amp
  | 0xC8 => BitVec.ofNat 32 x.ts.len
  | 0xCC => pack [(0, 24, x.ts.f0)]
  | 0xD0 => pack [(0, 24, x.ts.f1)]
  | 0xE0 => pack [(16, 2, x.mig.dcore), (8, 5, x.mig.dslot)]
  | 0xE4 => BitVec.ofNat 32 (x.mig.h % 2 ^ 32)
  | 0xE8 => pack [(0, 16, x.mig.h / 2 ^ 32)]
  | 0xEC => x.mig.word
  | _ => 0

/-- What a read of a slot offset returns; of a free slot only STAT is not 0 (R222). -/
def word (off : Nat) (x : Slot) : Word :=
  match off with
  | 0x0C => if x.state = .free then 3 else x.statWord
  | _ =>
    if x.state = .free then 0
    else match off with
      | 0x00 => x.cfgWord
      | 0x04 => pack [(16, 16, x.cfg.deadline), (0, 16, x.cfg.rate)]
      | 0x10 => BitVec.ofNat 32 x.kLatest
      | 0x14 => x.sampleHi.setWidth 32
      | 0x18 => BitVec.ofNat 32 x.misscnt
      | 0x1C => x.sat.setWidth 32
      | _ => if off < 0x80 then x.parWord off else x.genWord off

/-- A word as a signed value. -/
def int32 (w : Word) : Int := w.toInt

/-- Writes of the coefficient shadows and parameters (R208, R209). -/
def writePar (off : Nat) (w : Word) (x : Slot) : Slot :=
  match off with
  | 0x20 => { x with coefShadow := { x.coefShadow with kp := int32 w } }
  | 0x24 => { x with coefShadow := { x.coefShadow with ki := int32 w } }
  | 0x28 => { x with coefShadow := { x.coefShadow with kd := int32 w } }
  | 0x2C => { x with coefShadow := { x.coefShadow with kf := int32 w } }
  | 0x30 => { x with coefShadow := { x.coefShadow with outMin := int32 w } }
  | 0x34 => { x with coefShadow := { x.coefShadow with outMax := int32 w } }
  | 0x38 => { x with coefShadow := { x.coefShadow with iLim := int32 w } }
  | 0x40 => { x with par := { x.par with setpoint := int32 w } }
  | 0x44 => { x with par := { x.par with idref := int32 w } }
  | 0x48 => { x with par := { x.par with vnom := fld w 0 16 } }
  | 0x4C => { x with par := { x.par with auxofs := signed 16 (fld w 16 16), inofs := signed 16 (fld w 0 16) } }
  | 0x50 => { x with par := { x.par with poles := fld w 16 8, encsel := fld w 0 4 } }
  | 0x54 => { x with par := { x.par with cpr := fld w 0 24 } }
  | 0x58 => { x with par := { x.par with angofs := w } }
  | 0x5C => { x with par := { x.par with malpha := int32 w } }
  | 0x60 => { x with par := { x.par with mgain := int32 w } }
  | 0x64 => { x with par := { x.par with tamb := fld w 16 16, mdev := fld w 0 16 } }
  | _ => x

/-- Writes of generator, test-signal and migration registers, GO and STOP apart. -/
def writeGen (off : Nat) (w : Word) (x : Slot) : Slot :=
  match off with
  | 0x80 => { x with gen := { x.gen with regOp := fld w 0 2 } }
  | 0x84 => { x with gen := { x.gen with regTarget := signed 40 (twos 40 x.gen.regTarget / 2 ^ 32 * 2 ^ 32 + w.toNat) } }
  | 0x88 => { x with gen := { x.gen with regTarget := signed 40 (fld w 0 8 * 2 ^ 32 + twos 40 x.gen.regTarget % 2 ^ 32) } }
  | 0x8C => { x with gen := { x.gen with regVel := int32 w } }
  | 0x90 => { x with gen := { x.gen with regAcc := w.toNat } }
  | 0x94 => { x with gen := { x.gen with regJerk := w.toNat } }
  | 0x98 => { x with gen := { x.gen with clip := w1c w 3 x.gen.clip, arrived := w1c w 2 x.gen.arrived } }
  | 0xC0 => { x with ts := { x.ts with kind := fld w 28 2, point := w.getLsbD 27, order := fld w 20 4, holdn := fld w 12 8 } }
  | 0xC4 => { x with ts := { x.ts with amp := int32 w } }
  | 0xC8 => { x with ts := { x.ts with len := w.toNat } }
  | 0xCC => { x with ts := { x.ts with f0 := fld w 0 24 } }
  | 0xD0 => { x with ts := { x.ts with f1 := fld w 0 24 } }
  | 0xE0 => { x with mig := { x.mig with dcore := fld w 16 2, dslot := fld w 8 5 } }
  | 0xE4 => { x with mig := { x.mig with h := x.mig.h / 2 ^ 32 * 2 ^ 32 + w.toNat } }
  | 0xE8 => { x with mig := { x.mig with h := fld w 0 16 * 2 ^ 32 + x.mig.h % 2 ^ 32 } }
  | 0xEC => { x with mig := { x.mig with done := w1c w 1 x.mig.done } }
  | _ => x

/-- CFG's RW fields, taken only while parked or holding (R209). -/
def writeCfg (w : Word) (x : Slot) : Slot :=
  if x.state = .parked || x.state = .holding then
    { x with fshift := fld w 16 6, eshift := fld w 8 6, ffsel := fld w 6 2, supplyff := w.getLsbD 5, velmode := w.getLsbD 4 }
  else x

end Slot

namespace State

def slotRead (c : Fin 4) (i : Fin 24) (off : Nat) (s : State) : State :=
  match off with
  | 0x10 => s.latchSample c i
  | 0x18 => s.onSlot c i fun x => { x with misscnt := 0 }
  | 0xEC => s.onSlot c i fun x => { x with mig := { x.mig with discards := 0 } }
  | _ => s

/-- A CTRL write (R189): one bit alone acts; more set CERR. -/
def writeSlotCtrl (c : Fin 4) (i : Fin 24) (w : Word) (s : State) : State :=
  match fld w 0 3 with
  | 0 => s
  | 1 => s.runSlot c i
  | 2 => s.holdSlot c i
  | 4 => s.parkWrite c i
  | _ => s.slotCerr c i

/-- A COMMIT write (R75, R208). -/
def writeCoefCommit (c : Fin 4) (i : Fin 24) (w : Word) (s : State) : State :=
  if w.getLsbD 0 && w.getLsbD 1 then s
  else if w.getLsbD 0 then s.onSlot c i Slot.commitCoefs
  else if w.getLsbD 1 then s.onSlot c i Slot.discardCoefs else s

/-- A write to a slot that is not free. -/
def slotWriteReg (c : Fin 4) (i : Fin 24) (off : Nat) (w : Word) (s : State) : State :=
  match off with
  | 0x00 => s.onSlot c i (Slot.writeCfg w)
  | 0x08 => s.writeSlotCtrl c i w
  | 0x0C => s.onSlot c i fun x => { x with cerr := w1c w 8 x.cerr, miss := w1c w 7 x.miss }
  | 0x1C => s.onSlot c i fun x => { x with sat := x.sat &&& ~~~(w.setWidth 7) }
  | 0x3C => s.writeCoefCommit c i w
  | 0x80 => if w.getLsbD 31 then s.generatorGo c i (fld w 0 2) else s.onSlot c i (Slot.writeGen off w)
  | 0xC0 =>
    let s1 := s.onSlot c i (Slot.writeGen off w)
    let s2 := if w.getLsbD 30 then s1.onSlot c i fun x => { x with ts := x.ts.stopped } else s1
    if w.getLsbD 31 then s2.testGo c i else s2
  | 0xE0 =>
    let s1 := s.onSlot c i (Slot.writeGen off w)
    if w.getLsbD 31 then s1.migrate c i else s1
  | _ => s.onSlot c i fun x => if off < 0x80 then x.writePar off w else x.writeGen off w

/-! ## Loop cores -/

/-- Slots of a core that are not free. -/
def coreSlots (c : Fin 4) (s : State) : Nat := ((s.core c).slots.toList.filter fun x => x.state != .free).length

def coreWord (c : Fin 4) (off : Nat) (s : State) : Word :=
  let k := s.core c
  match off with
  | 0x00 => pack [(16, 16, s.coreLoad c / 400000), (0, 5, s.coreSlots c)]
  | 0x04 => s.times.loop.setWidth 32
  | 0x08 => k.timeHi.setWidth 32
  | 0x10 => pack [(4, 4, k.capEn.toNat), flag 2 k.capTrig]
  | 0x14 => k.capSel
  | 0x18 => pack [(8, 4, k.capMoved.toNat), (4, 4, k.capFull.toNat), (0, 4, k.capRun.toNat)]
  | 0x40 => pack [(2, 14, k.capAddr)]
  | 0x44 => s.mem.word32 (c.val + 1) (4 * k.capAddr)
  | _ =>
    if 0x20 ≤ off && off < 0x30 then BitVec.ofNat 32 ((elem? k.capCnt ((off - 0x20) / 4)).getD 0)
    else if 0x30 ≤ off && off < 0x40 then (elem? k.capFirst ((off - 0x30) / 4)).getD 0 else 0

def coreRead (c : Fin 4) (off : Nat) (s : State) : State :=
  match off with
  | 0x04 => s.latchLoopTime c
  | 0x44 => s.readCapture c
  | _ => s

/-- A CAPCTRL write: the fields, STOP, then ARM. -/
def writeCapCtrl (c : Fin 4) (w : Word) (s : State) : State :=
  let s1 := s.onCore c fun k => { k with capEn := BitVec.ofNat 4 (fld w 4 4), capTrig := w.getLsbD 2 }
  let s2 := if w.getLsbD 1 then s1.onCore c fun k => { k with capRun := 0 } else s1
  if w.getLsbD 0 then s2.onCore c Core.arm else s2

def coreWriteReg (c : Fin 4) (off : Nat) (w : Word) (s : State) : State :=
  match off with
  | 0x10 => s.writeCapCtrl c w
  | 0x14 => s.onCore c fun k => { k with capSel := w }
  | 0x18 => s.onCore c fun k => { k with capMoved := k.capMoved &&& ~~~((w >>> 8).setWidth 4) }
  | 0x40 => s.onCore c fun k => { k with capAddr := fld w 2 14 }
  | _ => s

/-- An offset within a core: a slot's register, or the core's own. -/
def lpcSlot (off : Nat) : Option (Fin 24) := if 0x1000 ≤ off then fin? 24 ((off - 0x1000) / 0x100) else none

def lpcReadReg (c : Fin 4) (off : Nat) (s : State) : Word × State :=
  match lpcSlot off with
  | some i => ((s.slot c i).word (off % 0x100), s.slotRead c i (off % 0x100))
  | none => if 0x1000 ≤ off then (0, s) else (s.coreWord c off, s.coreRead c off)

def lpcWriteReg (c : Fin 4) (off : Nat) (w : Word) (s : State) : State :=
  match lpcSlot off with
  | some i => if (s.slot c i).state = .free then s else s.slotWriteReg c i (off % 0x100) w
  | none => if 0x1000 ≤ off then s else s.coreWriteReg c off w

end State

/-! ## Tohevik ports -/

def TlkState.code : TlkState → Nat
  | .unused => 0
  | .training => 1
  | .running => 2
  | .safe => 3
  | .suspended => 4

/-- One bit for each position that satisfies a test. -/
def positions (f : Nat → Bool) : Nat := (List.range 8).foldl (fun m p => m + (if f p then 2 ^ p else 0)) 0

/-- TLKn_NODEp_STAT. -/
def TNode.statWord (t : TNode) : Word :=
  pack [(16, 8, t.validCyc), (12, 4, t.ackSeq), (8, 4, t.cseq), flag 4 t.cerr, flag 3 t.nodeSafe, flag 2 t.lost, flag 1 t.configured,
    flag 0 t.addressed]

def TNode.word (off : Nat) (t : TNode) : Word :=
  match off with
  | 0x00 => t.statWord
  | 0x08 => t.errWord
  | 0x0C => t.caps
  | 0x10 => t.uid.setWidth 32
  | 0x14 => t.uid.extractLsb' 32 32
  | 0x18 => t.status.setWidth 32
  | _ => 0

namespace State

/-- TLKn_NODECFG. -/
def nodeCfgWord (n : Fin 8) (s : State) : Word :=
  let len := (s.chain n).length
  pack [(16, 8, positions fun p => (elem? (s.tlk n).nodes p).any (·.lost)), (8, 8, 2 ^ len - 1), (0, 8, if len = 0 then 0 else 2 ^ (len - 1))]

def tlkWord (n : Fin 8) (off : Nat) (s : State) : Word :=
  let k := s.tlk n
  match off with
  | 0x04 => pack [(8, 8, positions fun p => (elem? k.nodes p).any (·.configured)), (0, 3, k.state.code)]
  | 0x08 => s.nodeCfgWord n
  | 0x0C => k.cycle
  | 0x10 => k.rtt.setWidth 32
  | 0x20 => k.inj.word
  | 0x24 => k.inj.bits
  | 0x28 => BitVec.ofNat 32 k.inj.count
  | _ => if 0x100 ≤ off && off < 0x200 then ((elem? k.nodes ((off - 0x100) / 0x20)).map (TNode.word (off % 0x20))).getD 0 else 0

def tlkRead (n : Fin 8) (off : Nat) (s : State) : State :=
  if off = 0x28 then s.onTlk n fun k => { k with inj := { k.inj with count := 0 } }
  else if 0x100 ≤ off && off < 0x200 && off % 0x20 = 8 then
    match fin? 8 ((off - 0x100) / 0x20) with
    | some p => s.clearPlncrc n p
    | none => s
  else s

/-- A TLKn_INJCTRL write: the fields, STOP, then GO. -/
def writeInjection (n : Fin 8) (w : Word) (s : State) : State :=
  let s1 := s.onTlk n fun k => { k with inj := k.inj.writeFields w }
  let s2 := if w.getLsbD 30 then s1.endInjection n else s1
  if w.getLsbD 31 then s2.startInjection n else s2

/-- A write to a node's registers. -/
def tnodeWriteReg (n p : Fin 8) (off : Nat) (w : Word) (s : State) : State :=
  match off with
  | 0x00 => s.onTNode n p fun t => { t with cerr := w1c w 4 t.cerr }
  | 0x04 => if w.getLsbD 0 then s.restoreNode n p else s
  | _ => s

def tlkWriteReg (n : Fin 8) (off : Nat) (w : Word) (s : State) : State :=
  match off with
  | 0x00 => if w.getLsbD 0 then s.trainPort n else s
  | 0x20 => s.writeInjection n w
  | 0x24 => s.onTlk n fun k => { k with inj := { k.inj with bits := w } }
  | _ =>
    if 0x100 ≤ off && off < 0x200 then
      match fin? 8 ((off - 0x100) / 0x20) with
      | some p => s.tnodeWriteReg n p (off % 0x20) w
      | none => s
    else s

end State

end Sys2Proof.Machine
end

