-- ==== Sys2Proof/Machine/RegsData.lean ====
section
/-!
DEFINITION. The registers of the data plane by offset within their block: DMA, PDP, HPT. For each: the word a read returns, what the read
does, what a write does.
-/

namespace Sys2Proof.Machine

/-! ## DMA -/

def ChanState.code : ChanState → Nat
  | .idle => 0
  | .running => 1
  | .stopping => 2
  | .stopped => 3
  | .halted => 4

namespace Chan

/-- Idle, stopped or halted: the fields marked "idle" accept writes. -/
def settable (k : Chan) : Bool := k.state = .idle || k.state = .stopped || k.state = .halted

def statWord (k : Chan) : Word :=
  pack [(16, 8, k.owed.length), (8, 8, k.lastStatus), flag 4 k.irqp, flag 3 k.cerr, (0, 3, k.state.code)]

def word (off : Nat) (k : Chan) : Word :=
  match off with
  | 0x00 => pack [(4, 5, k.vector), flag 0 k.loc]
  | 0x04 => k.statWord
  | 0x08 => k.dbase.setWidth 32
  | 0x0C => k.dbase.extractLsb' 32 32
  | 0x10 => pack [(0, 13, k.dsize)]
  | 0x14 => pack [(0, 12, k.dhead)]
  | 0x18 => pack [(0, 12, k.dtail)]
  | 0x1C => k.rbase.setWidth 32
  | 0x20 => k.rbase.extractLsb' 32 32
  | 0x24 => pack [(0, 13, k.rsize)]
  | 0x28 => pack [(0, 12, k.rhead)]
  | 0x2C => pack [(0, 12, k.rtail)]
  | 0x30 => BitVec.ofNat 32 k.disc
  | _ => 0

/-- A write that only a settable channel takes; otherwise CERR sets. -/
def whenIdle (f : Chan → Chan) (k : Chan) : Chan := if k.settable then f k else { k with cerr := true }

/-- CTRL's fields; LOC is an idle field, and writing it unchanged is no change. -/
def writeFields (w : Word) (k : Chan) : Chan :=
  let k1 := { k with vector := fld w 4 5 }
  if w.getLsbD 0 = k.loc then k1 else k1.whenIdle fun x => { x with loc := w.getLsbD 0 }

/-- Writes of the registers that no other part of the state follows. -/
def put (off : Nat) (w : Word) (k : Chan) : Chan :=
  match off with
  | 0x00 => k.writeFields w
  | 0x04 => { k with irqp := w1c w 4 k.irqp, cerr := w1c w 3 k.cerr }
  | 0x08 => k.whenIdle fun x => { x with dbase := x.dbase.extractLsb' 32 32 ++ (w &&& 0xFFFFFFE0) }
  | 0x0C => k.whenIdle fun x => { x with dbase := w ++ x.dbase.extractLsb' 0 32 }
  | 0x10 => k.whenIdle fun x => { x with dsize := fld w 0 13 }
  | 0x14 => { k with dhead := fld w 0 12 }
  | 0x1C => k.whenIdle fun x => { x with rbase := x.rbase.extractLsb' 32 32 ++ (w &&& 0xFFFFFFF0) }
  | 0x20 => k.whenIdle fun x => { x with rbase := w ++ x.rbase.extractLsb' 0 32 }
  | 0x24 => k.whenIdle fun x => { x with rsize := fld w 0 13 }
  | 0x2C => { k with rtail := fld w 0 12 }
  | _ => k

end Chan

namespace State

/-- DMA_ENGe_STAT. -/
def engWord (e : Fin 4) (s : State) : Word :=
  let g := (s.engine e).granted
  pack [flag 20 g.isSome, (16, 4, g.getD 0),
    (0, 16, (List.finRange 16).foldl (fun m i => m + (if s.requests (chanOf e i) then 2 ^ i.val else 0)) 0)]

/-- The channel an offset of an engine's window names. -/
def dmaChan (e : Fin 4) (off : Nat) : Option (Fin 64) :=
  if 0x1000 ≤ off then (fin? 16 ((off - 0x1000) / 0x100)).map (chanOf e) else none

/-- The byte offset in the DMA area of keep RAM that the window at 0x0050_E000 shows at an offset of engine 0 (R263). -/
def dmaArea (e : Fin 4) (off : Nat) : Option Nat := if e.val = 0 && 0xE000 ≤ off then some (off - 0xE000) else none

/-- A checked read of a word of the DMA area. -/
def areaRead (a : Nat) (s : State) : ReadResult := s.mem.read 6 a 4

def dmaReadReg (e : Fin 4) (off : Nat) (s : State) : Word × State :=
  match dmaArea e off, dmaChan e off with
  | some a, _ => (BitVec.ofNat 32 (leNat (s.areaRead a).bytes), s.noteRead 6 (s.areaRead a) true)
  | none, some c => ((s.chan c).word (off % 0x100), if off % 0x100 = 0x30 then s.clearDisc c else s)
  | none, none => (if off = 0 then s.engWord e else 0, s)

/-- A CTRL write: the fields, STOP, then START. -/
def chanWriteReg (c : Fin 64) (off : Nat) (w : Word) (s : State) : State :=
  let s1 := s.onChan c (Chan.put off w)
  if off = 0 then
    let s2 := if w.getLsbD 30 then s1.stopChan c else s1
    if w.getLsbD 31 then s2.startChan c else s2
  else s1

def dmaWriteReg (e : Fin 4) (off : Nat) (w : Word) (s : State) : State :=
  match dmaArea e off, dmaChan e off with
  | some a, _ => s.onMem fun m => m.writeBytes 6 a (leBytes 4 w.toNat)
  | none, some c => s.chanWriteReg c (off % 0x100) w
  | none, none => s

end State

/-! ## PDP -/

/-- A tag as a register: −1 reads 0xFFFF_FFFF. -/
def tagWord (t : Int) : Word := BitVec.ofNat 32 (twos 32 t)

namespace Pdp

def statWord (testBusy : Bool) (d : Pdp) : Word :=
  pack [flag 6 d.replay, flag 5 testBusy, flag 4 d.mapset, flag 3 d.hmbusy, flag 2 d.pend.isSome, flag 1 d.cerr, flag 0 d.done]

/-- The fields that a port accepts while disarmed. -/
def putDisarmed (off : Nat) (w : Word) (d : Pdp) : Pdp :=
  match off with
  | 0x00 => { d with grey := w.getLsbD 1, order := w.getLsbD 0 }
  | 0x28 => { d with scany0 := w.toInt }
  | 0x2C => { d with adv := fld w 16 16, ilace := fld w 0 4 }
  | _ => d

end Pdp

namespace HTest

def word (off : Nat) (t : HTest) : Word :=
  match off with
  | 0x34 => pack [flag 4 t.merge, (2, 2, t.op)]
  | 0x38 => pack [(16, 14, t.count), (0, 14, t.first)]
  | 0x3C => pack [(0, 16, t.rate)]
  | 0x40 => pack [(16, 16, t.ctMax), (0, 16, t.ctMin)]
  | 0x44 => pack [(16, 16, t.win), (0, 16, t.delay)]
  | 0x48 => pack [flag 31 t.done, flag 30 t.aborted, (0, 16, t.missingReg)]
  | _ => 0

def put (off : Nat) (w : Word) (t : HTest) : HTest :=
  match off with
  | 0x34 => { t with merge := w.getLsbD 4, op := fld w 2 2 }
  | 0x38 => { t with count := fld w 16 14, first := fld w 0 14 }
  | 0x3C => { t with rate := fld w 0 16 }
  | 0x40 => { t with ctMax := fld w 16 16, ctMin := fld w 0 16 }
  | 0x44 => { t with win := fld w 16 16, delay := fld w 0 16 }
  | 0x48 => { t with done := w1c w 31 t.done, aborted := w1c w 30 t.aborted }
  | _ => t

end HTest

namespace State

/-- PDPn_CFG. -/
def pdpCfgWord (p : Fin 4) (s : State) : Word :=
  let d := (s.port p).pdp
  match s.profile p with
  | some r => pack [(16, 16, r.npr), (8, 8, r.groups), flag 1 d.grey, flag 0 d.order]
  | none => pack [flag 1 d.grey, flag 0 d.order]

def pdpWord (p : Fin 4) (off : Nat) (s : State) : Word :=
  let q := s.port p
  let d := q.pdp
  match off with
  | 0x00 => s.pdpCfgWord p
  | 0x04 => d.statWord q.test.busy
  | 0x08 => tagWord d.f
  | 0x0C => tagWord (d.v (s.prof p).sMax)
  | 0x10 => BitVec.ofNat 32 (d.keepTag (s.portWr p))
  | 0x14 => pack [(0, 16, d.lowmark)]
  | 0x18 => d.masksel
  | 0x1C => d.applytag
  | 0x24 => d.maskact
  | 0x28 => BitVec.ofNat 32 (twos 32 d.scany0)
  | 0x2C => pack [(16, 16, d.adv), (0, 4, d.ilace)]
  | 0x30 => BitVec.ofNat 32 d.unpl
  | _ => q.test.word off

def pdpReadReg (p : Fin 4) (off : Nat) (s : State) : Word × State :=
  (s.pdpWord p off, if off = 0x30 then s.onPort p fun q => { q with pdp := { q.pdp with unpl := 0 } } else s)

/-- A PDPn_COMMIT write (R75, R136): COMMIT with DISCARD has no effect. -/
def writeMaskCommit (p : Fin 4) (w : Word) (s : State) : State :=
  if w.getLsbD 0 && w.getLsbD 2 then s
  else if w.getLsbD 0 then s.onPort p (Port.commitMasks (s.prof p) (w.getLsbD 1))
  else if w.getLsbD 2 then s.onPort p Port.discardMasks else s

/-- A PDPn_TEST write: the fields, ABORT, then GO. -/
def writeTest (p : Fin 4) (w : Word) (s : State) : State :=
  let s1 := s.onPort p fun q => { q with test := q.test.put 0x34 w }
  let s2 := if w.getLsbD 1 then s1.onPort p Port.abortTest else s1
  if w.getLsbD 0 then s2.startTest p else s2

def pdpWriteReg (p : Fin 4) (off : Nat) (w : Word) (s : State) : State :=
  match off with
  | 0x00 | 0x28 | 0x2C => if (s.port p).arm.armed then s else s.onPort p fun q => { q with pdp := q.pdp.putDisarmed off w }
  | 0x04 => s.onPort p fun q => { q with pdp := { q.pdp with cerr := w1c w 1 q.pdp.cerr, done := w1c w 0 q.pdp.done } }
  | 0x14 => s.writeLowmark p (fld w 0 16)
  | 0x18 => s.onPort p fun q => { q with pdp := { q.pdp with masksel := w } }
  | 0x1C => s.onPort p fun q => { q with pdp := { q.pdp with applytag := w } }
  | 0x20 => s.writeMaskCommit p w
  | 0x34 => s.writeTest p w
  | _ => s.onPort p fun q => { q with test := q.test.put off w }

end State

/-! ## Head ports -/

/-- HPTn_PROFILE of a port with a profile (R169). -/
def Profile.word (r : Profile) : Word :=
  pack [flag 31 true, (16, 8, r.mode), (12, 4, r.lanes), (8, 4, r.clk), flag 7 (r.clk.testBit 4), (0, 3, r.strobes)]

namespace Head

/-- A transaction holds the sideband. -/
def busy (h : Head) : Bool := h.abusy || h.usage.isSome || h.sbBusy

def ctrlWord (h : Head) : Word := pack [(16, 7, h.sbaddr), flag 8 h.sb400, flag 1 h.detect]

def xferWord (h : Head) : Word :=
  pack [flag 30 h.sbWrite, (28, 2, h.sbLen), flag 27 h.sbDone, flag 26 h.sbErr, (0, 16, h.sbAddr)]

/-- HCTRL's fields; SBADDR and SB400 stay while the port is armed or busy. -/
def putCtrl (armed : Bool) (w : Word) (h : Head) : Head :=
  if armed || h.busy then { h with detect := w.getLsbD 1 }
  else { h with detect := w.getLsbD 1, sbaddr := fld w 16 7, sb400 := w.getLsbD 8 }

def putXfer (w : Word) (h : Head) : Head :=
  { h with sbWrite := w.getLsbD 30, sbLen := fld w 28 2, sbDone := w1c w 27 h.sbDone, sbErr := w1c w 26 h.sbErr, sbAddr := fld w 0 16 }

end Head

namespace SosSt

def word (off : Nat) (q : SosSt) : Word :=
  match off with
  | 0x100 => pack [(0, 16, q.lines)]
  | 0x104 => q.pitch
  | 0x108 => q.ofs
  | 0x10C => q.exp
  | 0x110 => q.expr
  | 0x114 => q.last
  | 0x118 => pack [(16, 16, q.anchors.toNat), (8, 8, q.early), (0, 8, q.ignored)]
  | _ => 0

def put (off : Nat) (w : Word) (q : SosSt) : SosSt :=
  match off with
  | 0x100 => { q with lines := fld w 0 16 }
  | 0x104 => { q with pitch := w }
  | 0x108 => { q with ofs := w }
  | 0x10C => { q with exp := w }
  | 0x110 => { q with expr := w }
  | _ => q

end SosSt

namespace EnergySet

/-- A pair of factors, F(2m+1) above F(2m). -/
def pair (m : Nat) (e : EnergySet) : Word := pack [(16, 16, (elem? e.f (2 * m + 1)).getD 0), (0, 16, (elem? e.f (2 * m)).getD 0)]

def putPair (m : Nat) (w : Word) (e : EnergySet) : EnergySet :=
  { e with f := updNat (updNat e.f (2 * m) fun _ => fld w 0 16) (2 * m + 1) fun _ => fld w 16 16 }

def word (off : Nat) (e : EnergySet) : Word :=
  match off with
  | 0x200 => pack [(0, 16, e.e)]
  | 0x204 => pack [(8, 8, e.step), (0, 8, twos 8 e.base)]
  | _ => e.pair ((off - 0x208) / 4)

def put (off : Nat) (w : Word) (e : EnergySet) : EnergySet :=
  match off with
  | 0x200 => { e with e := fld w 0 16 }
  | 0x204 => { e with step := fld w 8 8, base := signed 8 (fld w 0 8) }
  | _ => e.putPair ((off - 0x208) / 4) w

end EnergySet

namespace State

def armStatWord (a : ArmSt) : Word := pack [(20, 4, a.discause), (8, 8, a.reason), flag 1 a.refused, flag 0 a.armed]

/-- Head registers, 0x0000 to 0x003C. DESIGN CHOICE: ARM reads whether the port is armed, not the bit written
last (log entry 81). -/
def headWord (p : Fin 4) (off : Nat) (s : State) : Word :=
  let q := s.port p
  let h := q.head
  match off with
  | 0x00 => pack [flag 1 q.arm.dryrunReg, flag 0 q.arm.armed]
  | 0x04 => ((s.profile p).map Profile.word).getD 0
  | 0x08 => armStatWord q.arm
  | 0x10 => h.ctrlWord
  | 0x14 => h.statWord
  | 0x18 => h.id.setWidth 32
  | 0x1C => h.id.extractLsb' 32 32
  | 0x20 => BitVec.ofNat 32 h.drops
  | 0x24 => h.dropsHi.setWidth 32
  | 0x28 => h.useq
  | 0x2C =>
    if q.temp.tsgain = 0 then pack [(16, 12, q.temp.tscode)]
    else pack [flag 31 q.temp.valid, (16, 12, q.temp.tscode), (0, 16, twos 16 q.temp.t)]
  | 0x30 => pack [(16, 12, q.temp.tsofs), (0, 16, twos 16 q.temp.tsgain)]
  | 0x34 => pack [(16, 12, q.fire.vhsCode), (0, 16, q.fire.vioh)]
  | 0x38 => h.xferWord
  | 0x3C => h.sbData
  | _ => 0

/-- Firing and seam registers, 0x0200 on. -/
def fireWord (p : Fin 4) (off : Nat) (s : State) : Word :=
  let q := s.port p
  match off with
  | 0x21C => pack [flag 2 q.fire.cerr, flag 1 q.fire.pend.isSome, flag 0 q.fire.set]
  | 0x220 => pack [(16, 16, q.fire.vhs10mV), (0, 16, q.fire.width)]
  | 0x224 => q.fire.clampsWord
  | 0x228 => pack [flag 9 s.thm.throt, flag 8 (s.headThrottled p), (0, 8, s.cap p)]
  | 0x230 => q.fire.cut.setWidth 32
  | 0x240 => q.seam.word
  | 0x244 => tagWord q.seam.line
  | 0x248 => BitVec.ofNat 32 q.seam.res
  | 0x24C => pack [(0, 6, q.seam.grp)]
  | 0x254 => BitVec.ofNat 32 q.seam.count
  | _ => if 0x200 ≤ off && off ≤ 0x204 || (0x208 ≤ off && off ≤ 0x214) then q.fire.shadow.word off else 0

def hptWord (p : Fin 4) (off : Nat) (s : State) : Word :=
  if off < 0x100 then s.headWord p off else if off < 0x200 then (s.port p).sos.word off else s.fireWord p off

/-- The latching and clearing reads. -/
def hptReadEffect (p : Fin 4) (off : Nat) (s : State) : State :=
  match off with
  | 0x20 => s.latchDrops p
  | 0x118 => s.onPort p fun q => { q with sos := { q.sos with early := 0, ignored := 0 } }
  | 0x224 => s.onPort p Port.clearClamps
  | 0x254 => s.onPort p fun q => { q with seam := { q.seam with count := 0 } }
  | _ => s

def hptReadReg (p : Fin 4) (off : Nat) (s : State) : Word × State := (s.hptWord p off, s.hptReadEffect p off)

/-- An HPTn_ARM write (R182, R183). -/
def writeArm (p : Fin 4) (w : Word) (s : State) : State :=
  if w.getLsbD 0 then s.armPort p (w.getLsbD 1)
  else (s.onPort p Port.startDisarm).onPort p fun q => { q with arm := { q.arm with dryrunReg := w.getLsbD 1 } }

/-- An HPTn_HCTRL write: the fields, AUTH, USAGE. -/
def writeHctrl (p : Fin 4) (w : Word) (s : State) : State :=
  let s1 := s.onPort p fun q => { q with head := q.head.putCtrl q.arm.armed w }
  let s2 := if w.getLsbD 3 then s1.repeatAuth p else s1
  if w.getLsbD 4 then s2.requestUsage p else s2

/-- An HPTn_SBXFER write: the fields, GO. -/
def writeSbxfer (p : Fin 4) (w : Word) (s : State) : State :=
  s.onPort p fun q => { q with head := if w.getLsbD 31 then (q.head.putXfer w).sbGo else q.head.putXfer w }

/-- An HPTn_ECOMMIT write (R75, R149): COMMIT with DISCARD has no effect. -/
def writeEcommit (p : Fin 4) (w : Word) (s : State) : State :=
  if w.getLsbD 0 && w.getLsbD 1 then s
  else if w.getLsbD 0 then s.onPort p Port.commitEnergy
  else if w.getLsbD 1 then s.onPort p Port.discardEnergy else s

/-- An HPTn_SEAMCTL write: PAUSE, then RELEASE. -/
def writeSeamctl (p : Fin 4) (w : Word) (s : State) : State :=
  let s1 := if w.getLsbD 0 then s.seamCause p .pause (s.boundaryLine p) else s
  if w.getLsbD 1 then s1.releaseSeam p else s1

/-- Head registers, 0x0000 to 0x003C. -/
def headWriteReg (p : Fin 4) (off : Nat) (w : Word) (s : State) : State :=
  match off with
  | 0x00 => s.writeArm p w
  | 0x08 => s.onPort p fun q => { q with arm := { q.arm with refused := w1c w 1 q.arm.refused } }
  | 0x10 => s.writeHctrl p w
  | 0x14 => s.onPort p fun q => { q with head := { q.head with cerr := w1c w 7 q.head.cerr } }
  | 0x30 => s.onPort p fun q => { q with temp := { q.temp with tsofs := fld w 16 12, tsgain := signed 16 (fld w 0 16) } }
  | 0x38 => s.writeSbxfer p w
  | 0x3C => s.onPort p fun q => { q with head := { q.head with sbData := w } }
  | _ => s

/-- Firing and seam registers, 0x0200 on. -/
def fireWriteReg (p : Fin 4) (off : Nat) (w : Word) (s : State) : State :=
  match off with
  | 0x218 => s.writeEcommit p w
  | 0x21C => s.onPort p fun q => { q with fire := { q.fire with cerr := w1c w 2 q.fire.cerr } }
  | 0x230 => s.onPort p fun q => { q with fire := { q.fire with cut := q.fire.cut &&& ~~~(w.setWidth 4) } }
  | 0x250 => s.writeSeamctl p w
  | _ =>
    if 0x200 ≤ off && off ≤ 0x214 then s.onPort p fun q => { q with fire := { q.fire with shadow := q.fire.shadow.put off w } } else s

def hptWriteReg (p : Fin 4) (off : Nat) (w : Word) (s : State) : State :=
  if off < 0x100 then s.headWriteReg p off w
  else if off < 0x200 then
    if (s.port p).arm.armed then s else s.onPort p fun q => { q with sos := q.sos.put off w }
  else s.fireWriteReg p off w

end State

end Sys2Proof.Machine
end

