-- ==== Sys2Proof/Machine/Thermal.lean ====
section
/-!
DEFINITION. The commands of thermal management and calibration (R291 to R308).
-/

namespace Sys2Proof.Machine

/-! ## Sensor evaluation (R291 to R300) -/

namespace State

/-- The readings of an evaluation, by sensor. -/
def readingsOf (counts : Vector (BitVec 16) 7) (s : State) (i : Nat) : Option Int :=
  (elem? counts i).bind (sensorReading s.cal.sets i)

/-- RO6 is judged first (R292): an implausible one sets SPAREBAD and raises 0x06. -/
def judgeSpare (counts : Vector (BitVec 16) 7) (s : State) : State :=
  let now := s.readingsOf counts
  let mid := median (s.thm.publishedOf (List.range 6))
  let ok := plausible (now 6) s.thm.ro6History mid
  let s1 := s.onThm fun t =>
    let r := (now 6).getD t.ro6
    { t with ro6 := r, ro6Count := counts[6].toNat, ro6History := (r :: t.ro6History).take 10
             spareBad := t.spareBad || !ok, impl := if ok then t.impl else satAdd 0xFFFF t.impl 1 }
  s1.raiseIf (!ok && !s.thm.spareBad) .management 0x06 1 6

/-- Zone `z` is in a sensor check. -/
def inCheck (s : State) (z : Nat) : Bool := s.thm.check.any fun k => k.zone = z

end State

/-- A zone in a sensor check at an evaluation: it has no reading of its own, and FORCE takes it to the model (R293). -/
def Zone.checked (force : Bool) (k : Zone) : Zone :=
  { k with history := (k.reading :: k.history).take 10, onModel := k.onModel || force }

namespace State

/-- The zones after their findings. -/
def judgeZones (counts : Vector (BitVec 16) 7) (s : State) : State :=
  let now := s.readingsOf counts
  s.onThm fun t =>
    let bad := (List.range 6).filter fun z => !s.inCheck z && !(t.finding now z).ok
    { t with
        zones := mapIdx (fun z k =>
          if s.inCheck z then k.checked (t.force.getLsbD z)
          else (k.see ((elem? counts z).getD 0) (t.finding now z)).judge (t.force.getLsbD z) (t.modelOf z) (t.finding now z)) t.zones
        impl := satAdd 0xFFFF t.impl bad.length }

end State

/-- T_a that makes a zone's model temperature its reading. -/
def Thm.ambientFor (t : Thm) (k : Zone) : Int := k.reading - (k.rise1 + k.rise2 + t.rise3) / 0x100000000

/-- T_a after the zones are judged: the first plausible readings after the start-up assumption give their mean (R297); a zone that
returns to its sensor adjusts it (R293). -/
def Thm.settleAmbient (before : Vector Zone 6) (t : Thm) : Thm :=
  let after := t.zones.toList
  if t.taAssumed then
    let l := (after.filter fun k => !k.fresh).map t.ambientFor
    if l.isEmpty then t else { t with ta := meanInt l, taAssumed := false }
  else
    (before.toList.zip after).foldl (fun u x => if x.1.returns x.2 then { u with ta := u.ambientFor x.2 } else u) t

/-- The sensor check has a gate less; RO6 turning implausible ends it with the zone on the model, and so does its failure (R294). -/
def Thm.advanceCheck (t : Thm) : Thm :=
  match t.check with
  | none => t
  | some k =>
    let onModel (u : Thm) : Thm := { u with zones := updNat u.zones k.zone fun z => { z with onModel := true, plausible := 0 } }
    if t.spareBad then { onModel t with check := none }
    else if k.left ≤ 1 then
      (if k.ok then { t with check := none } else { onModel t with check := none, impl := satAdd 0xFFFF t.impl 1 })
    else { t with check := some { k with left := k.left - 1 } }

/-- A check ends at this evaluation by its failure: its zone. -/
def Thm.failedCheck (t : Thm) : Option Nat :=
  t.check.bind fun k => if !t.spareBad && k.left ≤ 1 && !k.ok then some k.zone else none

/-- What each zone publishes (R291, R294), with the sensor check whose gate this is, and T_die. -/
def Thm.publish (check : Option SensorCheck) (t : Thm) : Thm :=
  let zones := mapIdx (fun z k =>
    { k with published :=
      if k.onModel then t.modelOf z
      else match check with
        | some c => if c.zone = z then t.ro6 + c.d else k.reading
        | none => k.reading }) t.zones
  let l := zones.toList.map (·.published)
  { t with zones := zones, tdie := l.foldl max (l.headD 0) }

/-- OTPOK (R300). -/
def Thm.otpWindow (t : Thm) : Bool :=
  t.zones.toList.all fun k => !k.onModel && !k.fresh && 0 ≤ k.published && k.published ≤ degrees 85

/-- A level with its hysteresis. -/
def levelAfter (held : Bool) (t enter leave : Int) : Bool := if held then leave ≤ t else enter ≤ t

namespace State

/-- OTPOK is evaluated; its loss ends an OTP operation (R300, R334). -/
def judgeOtpok (s : State) : State :=
  let ok := s.thm.otpWindow
  let s1 := s.onThm fun t => { t with otpok := ok }
  if ok then s1 else s1.abortOtp .otpokLost

/-- The die levels of the regime in force (R298), each raising its source on entry, in the order warning, throttle, shutdown. -/
def judgeLevels (s : State) : State :=
  let t := s.thm
  let normal := s.regime = 1
  let warn := normal && levelAfter t.warn t.tdie (degrees 105) (degrees 101)
  let throt := normal && levelAfter t.throt t.tdie (degrees 112) (degrees 108)
  let shut := if normal then levelAfter t.shut t.tdie (degrees 120) (degrees 116) else levelAfter t.shut t.tdie (degrees 118) (degrees 114)
  let s1 := s.onThm fun u => { u with warn := warn, throt := throt, shut := shut }
  ((s1.raiseIf (warn && !t.warn) .management 0x03 1 0).raiseIf (throt && !t.throt) .management 0x04 1 0).raiseIf
    (shut && !t.shut) .management 0x05 1 0

/-- The sensors whose readings raise 0x06 at this evaluation: those of zones that leave their sensors, and a failed check's. -/
def raiseSensors (before : Vector Zone 6) (failed : Option Nat) (s : State) : State :=
  (List.range 6).foldl (fun t z =>
    let b := (elem? before z).getD {}
    let a := (elem? s.thm.zones z).getD {}
    let left := if s.inCheck z then false else b.leaves a (s.thm.force.getLsbD z)
    t.raiseIf (left || (failed == some z && !s.thm.force.getLsbD z)) .management 0x06 1 z) s

/-- One evaluation. -/
def evaluateSensors (counts : Vector (BitVec 16) 7) (s : State) : State :=
  let before := s.thm.zones
  let s1 := (s.judgeSpare counts).judgeZones counts
  let s2 := s1.onThm (Thm.settleAmbient before)
  let s3 := s2.raiseSensors before s2.thm.failedCheck
  ((s3.onThm fun t => t.advanceCheck.publish t.check).onSys fun y => { y with vinReg := s.env.vin }).judgeOtpok.judgeLevels

end State

/-- SENSOR_EVALUATION (R291), every 100 µs at L0 to L3, with the gate counts of RO0 to RO6. VIN is measured at the same interval
(MGT_SUPSTAT). -/
def execSensorEvaluation (counts : Vector (BitVec 16) 7) (s : State) : Res :=
  .next (if s.mgmtClocked then s.evaluateSensors counts else s)

/-- The sensor of the next check: from the one whose turn it is, the first whose zone is not on the model (R294). -/
def Thm.checkedZone (t : Thm) : Option Nat :=
  ((List.range 6).map fun k => (t.checkNext + k) % 6).find? fun z => (elem? t.zones z).any fun k => !k.onModel

/-- The check passes: the counter pattern, and a count that changes by at most 2 % between the supply steps (R294). -/
def checkPasses (patternOk : Bool) (low high : BitVec 16) : Bool :=
  patternOk && ((high.toNat : Int) - low.toNat).natAbs * 100 ≤ 2 * low.toNat

def State.startCheck (patternOk : Bool) (low high : BitVec 16) (s : State) : State :=
  if s.thm.spareBad || s.thm.check.isSome then s
  else
    match s.thm.checkedZone with
    | none => s
    | some z =>
      s.onThm fun t =>
        { t with checkNext := (z + 1) % 6
                 check := some { zone := z, ok := checkPasses patternOk low high, left := 4
                                 d := ((elem? t.zones z).getD {}).published - t.ro6 } }

/-- SENSOR_CHECK (R294): the check begins; the next four evaluations are its gates, and its result acts at the fourth. -/
def execSensorCheck (patternOk : Bool) (countLow countHigh : BitVec 16) (s : State) : Res :=
  .next (if s.mgmtClocked then s.startCheck patternOk countLow countHigh else s)

/-! ## Model (R295, R296, R303) -/

/-- The 1 ms evaluation: poles, T_a, T_cal, the sets in force, VREFD. -/
def State.updateModel (milliwatts : Nat) (activity : Vector Nat 6) (s : State) : State :=
  let s1 := s.onThm fun t => (t.advancePoles milliwatts activity).trackAmbient
  s1.onCal fun c => { c with sets := s.setsInForce, tcal := s.thm.tcal, vrefd := interpolateVrefd s.thm.tcal s.setsInForce }

/-- MODEL_UPDATE (R295), with P and the zones' weighted activity counts. -/
def execModelUpdate (milliwatts : Nat) (activity : Vector Nat 6) (s : State) : Res :=
  .next (if s.mgmtClocked then s.updateModel milliwatts activity else s)

/-- IMPL_READ (R292): THM_IMPL, which clears. -/
def execImplRead (s : State) : Res :=
  .next (s.mgmtRead (fun t => BitVec.ofNat 32 t.thm.impl) fun t => t.onThm fun h => { h with impl := 0 })

/-! ## Calibration rounds (R306 to R308) -/

namespace State

/-- A round starts with the spare: rounds are enabled, the ADC delivers, and no round runs. -/
def startRound (s : State) : State :=
  if s.cal.en && s.adcReady && s.cal.channel.isNone then
    (s.onCal fun c => { c with channel := some 16, lastRound := c.tcal }).calibrateSense
  else s

/-- What starts a round by itself can have happened: a periodic round is configured, or T_cal has moved by 5 °C (R306). -/
def roundDue (s : State) : Bool := s.cal.period != 0 || 5 * 65536 ≤ (s.cal.tcal - s.cal.lastRound).natAbs

/-- The turn of a channel begins: the spare stands in. -/
def beginTurn (c : Nat) (s : State) : State :=
  if c < s.sys.variant.adcs then
    s.onCal fun k => { k with channel := some c, chans := updNat k.chans c fun x => { x with subst := true } }
  else s.onCal fun k => { k with channel := none }

/-- A channel takes its result, or keeps its values with its bit in CAL_FAIL (R307). -/
def takeResult (c rzero rref : Nat) (s : State) : State :=
  s.onCal fun k =>
    let r := calResult k.vrefd 65535 rzero rref
    { k with chans := updNat k.chans c (CalCh.take r k.tcal), fail := if r.isSome then k.fail else k.fail ||| (1#17 <<< c) }

/-- A turn ends with its measurements: the next channel's begins; a failed self-calibration of the spare abandons the round. -/
def endTurn (c rzero rref : Nat) (s : State) : State :=
  let s1 := s.takeResult c rzero rref
  if c = 16 then
    (if (calResult s.cal.vrefd 65535 rzero rref).isSome then s1.beginTurn 0 else s1.onCal fun k => { k with channel := none })
  else s1.beginTurn (c + 1)

end State

/-- CAL_ROUND (R306). -/
def execCalRound (s : State) : Res := .next (s.mgmtWrite State.startRound)

/-- CAL_ROUND_START (R306): PERIOD has passed, or T_cal has moved. -/
def execCalRoundStart (s : State) : Res := .next (if s.roundDue then s.startRound else s)

/-- CAL_CHANNEL_DONE (R306, R307), with the means of 16 codes of zero and of the reference. -/
def execCalChannelDone (rzero rref : Nat) (s : State) : Res :=
  .next (match s.cal.channel with
    | some c => if s.adcRuns then s.endTurn c rzero rref else s
    | none => s)

/-- The start-up calibration of the present channels and the spare (R306). -/
def State.startAdc (rzero rref : Vector Nat 17) (s : State) : State :=
  let s1 := ((List.range s.sys.variant.adcs) ++ [16]).foldl (fun (t : State) c =>
    t.takeResult c ((elem? rzero c).getD 0) ((elem? rref c).getD 0)) s
  s1.onCal fun k => { k with started := true, lastRound := k.tcal }

/-- ADC_STARTUP_CALIBRATION (R306), once after the ADC domain starts. -/
def execAdcStartupCalibration (rzero rref : Vector Nat 17) (s : State) : Res :=
  .next (if s.adcRuns && !s.cal.started then s.startAdc rzero rref else s)

/-! ## Field sets (R304) -/

/-- The field set CAL_SETADDR names. -/
def Cal.fieldSet (c : Cal) : Vector Word 8 := (elem? c.fieldSets c.setAddr).getD (Vector.replicate 8 0)

/-- STORE computes W7. -/
def Cal.store (c : Cal) : Cal :=
  { c with fieldSets := updNat c.fieldSets c.setAddr fun w => w.set 7 (setCheck w) }

/-- CAL_STORE (R304). -/
def execCalStore (s : State) : Res := .next (s.mgmtWrite fun t => t.onCal Cal.store)

/-- WORD advances after each access, 7 to 0. -/
def Cal.advance (c : Cal) : Cal := { c with wordAddr := (c.wordAddr + 1) % 8 }

/-- A CAL_SETDATA write; W7 ignores it. -/
def Cal.writeSet (w : Word) (c : Cal) : Cal :=
  if c.wordAddr = 7 then c.advance
  else { c with fieldSets := updNat c.fieldSets c.setAddr fun x => updNat x c.wordAddr fun _ => w }.advance

/-- The word CAL_SETDATA reads. -/
def Cal.setData (c : Cal) : Word := setWord c.fieldSet c.wordAddr

/-- CAL_SETDATA_ACCESS (R304). -/
def execCalSetdataAccess (write : Option Word) (s : State) : Res :=
  .next (match write with
    | some w => s.mgmtWrite fun t => t.onCal (Cal.writeSet w)
    | none => s.mgmtRead (fun t => t.cal.setData) fun t => t.onCal Cal.advance)

/-! ## Registers -/

/-- THM_STAT. -/
def State.thmStat (s : State) : Word :=
  pack ([(16, 16, sixteenths s.thm.tdie), (14, 2, s.regime), flag 13 s.thm.otpok, flag 12 s.thm.spareBad, flag 11 s.thm.shut,
    flag 10 s.thm.throt, flag 9 s.thm.warn] ++ (List.range 6).map fun z => flag z ((elem? s.thm.zones z).any (·.onModel)))

/-- THM_ZTz. -/
def Thm.zoneWord (t : Thm) (z : Nat) : Word :=
  pack [(16, 16, sixteenths (((elem? t.zones z).map (·.published)).getD 0)), (0, 16, sixteenths (t.modelOf z))]

/-- THM_ROi. -/
def Thm.sensorWord (t : Thm) (i : Nat) : Word :=
  if i = 6 then pack [(16, 16, sixteenths t.ro6), (0, 16, t.ro6Count)]
  else pack [(16, 16, sixteenths (((elem? t.zones i).map (·.reading)).getD 0)), (0, 16, ((elem? t.zones i).map (·.count)).getD 0)]

/-- CAL_CTRL as it reads. -/
def Cal.ctrlWord (c : Cal) : Word := pack [flag 16 c.en, (0, 16, c.period)]

/-- A CAL_CTRL write. -/
def State.writeCalCtrl (w : Word) (s : State) : State :=
  let s1 := s.onCal fun c => { c with en := w.getLsbD 16, period := fld w 0 16 }
  let s2 := if w.getLsbD 30 then s1.onCal Cal.store else s1
  if w.getLsbD 31 then s2.startRound else s2

/-- CAL_STAT. -/
def State.calStat (s : State) : Word :=
  pack ([flag 31 s.cal.channel.isSome, (16, 5, s.cal.channel.getD 0x1F)] ++
    ((List.range 3).map fun f => flag (8 + f) (s.otp.factoryValid f)) ++
    (List.range 8).map fun n => flag n ((elem? s.cal.fieldSets n).any (setValid 2)))

/-- CAL_TCAL. -/
def Cal.tcalWord (c : Cal) : Word := pack [(16, 16, twos 16 c.vrefd), (0, 16, sixteenths c.tcal)]

/-- Status word of a converter. -/
def CalCh.statWord (c : CalCh) : Word := pack [(16, 16, sixteenths c.tlast), flag 1 c.subst, flag 0 c.done]

end Sys2Proof.Machine
end

