-- ==== Sys2Proof/Machine/LadderOps.lean ====
section
/-!
DEFINITION. Shared operations of the power ladder (R273 to R285): what entering a rung does, what an exit step does, abandon and wake.
-/

namespace Sys2Proof.Machine

/-! ## Transitions -/

namespace Ladder

/-- BUSY: a transition is in progress, or held at L3 by a lost clock (R282, R285). -/
def busy (l : Ladder) : Bool := l.phase != .idle

/-- The first exit step from a rung (R282): 0 for A to 6 for G. -/
def firstStep (rung : Nat) : Nat :=
  match rung with
  | 0 | 1 => 6
  | 2 => 5
  | 3 => 4
  | 4 => 3
  | 5 | 6 => 1
  | _ => 0

/-- The step after a step, from the deepest rung reached: step C is run from L6 and L7 only. -/
def nextStep (deepest step : Nat) : Nat := if step = 1 && deepest ≤ 5 then 3 else step + 1

/-- An exit starts from the rung reached. -/
def startExit (l : Ladder) : Ladder := { l with phase := .exit (firstStep l.rung), deepest := l.rung, target := 0 }

/-- A descent starts. -/
def startDescent (target : Nat) (l : Ladder) : Ladder :=
  { l with phase := .descend, target := target, deepest := l.rung, abandoned := false }

/-- A rung is reached; at the target the transition completes. -/
def reach (rung : Nat) (l : Ladder) : Ladder :=
  if rung = l.target then { l with rung := rung, deepest := rung, phase := .idle, done := true }
  else { l with rung := rung, deepest := rung }

/-- The bit of a wake source in MGT_WAKESRC and MGT_WAKEEN. -/
def wakeBit : WakeSource → Nat
  | .pin => 0
  | .i2c => 1
  | .pcie => 2
  | .sprig _ _ => 3
  | .timer => 4
  | .clockLoss => 5
  | .command => 6

/-- Enabled: the WAKE pin, clock loss and the ladder command always are (R281). -/
def wakeEnabled (src : WakeSource) (l : Ladder) : Bool :=
  src == .pin || src == .clockLoss || src == .command || l.wakeEn.getLsbD (wakeBit src)

/-- The rungs at which a source acts (R281); WAKE high also ends a descent before its first gate lines (R279). -/
def wakeActs (src : WakeSource) (l : Ladder) : Bool :=
  match src with
  | .pin => 1 ≤ l.rung || l.phase == .descend
  | .i2c => 4 ≤ l.rung && l.rung ≤ 6
  | .pcie => l.rung = 3 || l.rung = 4
  | .sprig _ _ => l.rung = 2
  | .timer => 4 ≤ l.rung && l.rung ≤ 6 && l.aonTimer != 0
  | .clockLoss => 2 ≤ l.rung && l.rung ≤ 6
  | .command => 2 ≤ l.rung && l.rung ≤ 6

end Ladder

namespace State

/-- The host link condition of R278 for a descent's target: L1 for L3, L2/L3 Ready for a deeper one; a link that is not trained meets
both. -/
def linkReady (s : State) : Bool :=
  match s.host.link with
  | .down => true
  | .l23 => 4 ≤ s.ladder.target
  | .l1 => s.ladder.target ≤ 3
  | .l0 => false

/-- MGT_LSTAT.LINKWAIT: at L2 on the way deeper, the condition unmet. -/
def linkWait (s : State) : Bool :=
  s.ladder.phase == .descend && s.ladder.rung = 2 && 3 ≤ s.ladder.target && !s.linkReady

/-- A descent's quiescence exchange is over; no port's answer waits. An activation's goes on. -/
def endExchange (s : State) : State :=
  if s.quiesce.purpose == .activation then s
  else (s.onQuiesce fun _ => {}).onPorts fun v => v.map fun q => { q with head := { q.head with descentWait := false } }

/-- The reason an abandon writes (R279): the first in table order of those that hold, while the quiescence exchange is open (log entry
134). -/
def abandonReason (reason : Nat) (s : State) : Nat :=
  if s.quiesce.purpose != .descent then reason
  else if !s.dataQuiet then min reason 2
  else if !s.controlQuiet then min reason 3
  else if !s.dmaQuiet then min reason 4
  else reason

/-- A descent is abandoned (R279): the reason, and the exit of the deepest rung reached. -/
def abandon (reason : Nat) (s : State) : State :=
  s.endExchange.onLadder fun l =>
    let l1 := { l with reason := s.abandonReason reason, cerr := true, target := 0 }
    if l.rung = 0 then { l1 with phase := .idle } else { l1.startExit with abandoned := true }

/-- A wake event (R279 to R281). An exit records its source; one that joins an exit in progress is recorded too. -/
def wake (src : WakeSource) (s : State) : State :=
  let bit : BitVec 7 := 1#7 <<< Ladder.wakeBit src
  if s.ladder.wakeActs src && s.ladder.wakeEnabled src then
    match s.ladder.phase with
    | .descend =>
      let s1 := s.abandon 5
      if s.ladder.rung = 0 then s1 else s1.onLadder fun l => { l with wakeSrc := bit }
    | .idle => s.onLadder fun l => if l.rung = 0 then l else { l.startExit with wakeSrc := bit, abandoned := false }
    | .exit _ => s.onLadder fun l => { l with wakeSrc := l.wakeSrc ||| bit }
    | .stuck => s
  else s

end State

/-! ## Entering L2 (R277) -/

/-- A sprig at entry to L2 (R96): pending sets dropped, output terminals at their HOLD levels, inputs stopped, counts kept. DESIGN
CHOICE: an output sprig is idle from then on (STAT.ACTIVE 0, PWM and steps ended), a tach drops the count and edges of the gate in
progress, and a sense edge that waits for P2 is dropped: R96 says nothing of the three (log entry 135). -/
def Sprig.toRest (g : Sprig) : Sprig :=
  { g.goIdle with pend := none, holdLvl := g.mode != 0 && !inputOnly g.mode
                  tach := { g.tach with count := 0, prev := none, last := none }
                  sos := { g.sos with candidate := none } }

/-- An axis whose decoder has stopped: unsettled, its window empty (R96, R104). DESIGN CHOICE: an excursion in progress ends with it (log
entry 139). -/
def Axis.toRest (a : Axis) : Axis := { a.emptied with exc := none, lastFresh := none }

/-- The solenoids of a node whose HOLD level is on (R61, R239). -/
def Image.heldSolenoids (i : Image) (n p : Nat) : Nat :=
  (List.range 4).foldl (fun m o =>
    match i.safes.find? fun r => r.output = 0x400 + 32 * n + 4 * p + o with
    | some r => if r.hold = 1 || (r.hold = 3 && r.safe = 1) then m + 2 ^ o else m
    | none => m) 0

namespace State

/-- The frame of a slot in the SUSPEND cycle (R239). -/
def suspendFrame (n p : Fin 8) (s : State) : BitVec 192 :=
  let t := s.tnode n p
  match (s.chain n)[p.val]? with
  | some r =>
    if !t.configured then emptyFrame p.val
    else if t.sendSafe then safeFrameBits
    else mkFrame p.val t.cseq 0x14 (BitVec.ofNat 160 (r.safe + 256 * s.top.image.heldSolenoids n.val p.val))
  | none => emptyFrame p.val

/-- A running port sends one cycle of SUSPEND frames and stops (R239). -/
def suspendPort (n : Fin 8) (s : State) : State :=
  if (s.tlk n).state = .running then
    (s.sendFrames n fun p => s.suspendFrame n p).onTlk n fun k => { k with state := .suspended }
  else s

/-- Entry to L2. -/
def enterIdle (s : State) : State :=
  let s1 := s.stopScrub.onMem fun m =>
    { m with tt := { m.tt with paused := true, under := none, left := 0, failed := none, asked := false } }
  let s2 := (List.finRange 8).foldl (fun t n => t.suspendPort n) s1.endRound
  ((s2.onFab fun b => { b with sprigs := b.sprigs.map Sprig.toRest }).onAxes fun v => v.map Axis.toRest).endExchange

/-! ## Entering L3 and deeper -/

/-- Entry to L3: the banks go into retention or off (R275), the PLL stops. -/
def enterQuiet (s : State) : State := (s.onMem MemSys.retainBanks).onSys fun y => { y with pllLock := false }

end State

/-- The PCIe endpoint after its reset: the link is down and its configuration at reset values (R339). -/
def HostIf.endpointReset (h : HostIf) : HostIf :=
  { h with link := .down, d3hot := false, command := 0, bar0 := 0, msixEn := false, msixMask := false
           msix := Vector.replicate 32 {}, pba := 0 }

/-- Control and data plane without power: every register at its reset value; the levels outside the part and the host's memory are not
the part's. -/
def State.dropPlanes (s : State) : State :=
  let s1 := ((s.onFab Fab.outside).onAxes fun _ => Vector.replicate 8 {}).onCores fun _ => Vector.replicate 4 {}
  let s2 := ((s1.onTlks fun _ => Vector.replicate 8 {}).onPorts fun _ => Vector.replicate 4 {}).onDma fun d => { hostMem := d.hostMem }
  let s3 := s2.onLinks fun l => { inj := l.inj.stop }
  (s3.onHost fun h => { h.endpointReset with msix := h.msix, pba := h.pba, held := [], poison := false, winData := [] }).onTimes fun t => { t with fab := 0, loop := 0 }

/-- The structure ends with no image active (R43): the topiary slots and the capture RAMs are lost, reactions are at their reset
values. -/
def State.dropStructure (s : State) : State :=
  let s1 := s.onMem fun m => { m with capture := Vector.replicate 4 {}, staged := {}, active := {} }
  let s2 := s1.onTop fun t => { t with state := .idle, image := {}, activeValid := false, stagedValid := false, prepared := none
                                       actId := 0, actAfterVal := false }
  s2.onFlt fun f => { f with react := Vector.ofFn fun i => defaultReact i.val }

namespace State

/-- Entry to L5 (R276, R277): control and data plane lose their state, and the start-up regime begins (R298). -/
def enterDeep (s : State) : State :=
  s.dropPlanes.dropStructure.changeRegime fun t => t.onThm fun h => { h with startup := true }

end State

/-- What of the supply and clocks is a condition of the part and no management register, which L6 loses (R276): MGT_RSTCAUSE and the
warning and loss bits read 0 from then on. -/
def Sys.aonOnly (y : Sys) : Sys :=
  { variant := y.variant, fallback := y.fallback, phase := y.phase, fastLost := y.fastLost, lossOwed := y.lossOwed
    x32backup := y.x32backup, x32ok := y.x32ok, ref := y.ref, causes := {}, jtagtm := y.jtagtm, resetOwed := y.resetOwed }

/-- What keep RAM and the remap mirror hold (R276). -/
def MemSys.keepOnly (m : MemSys) : MemSys :=
  { keepMgmt := m.keepMgmt, keepDma := m.keepDma, remap := m.remap, usage := m.usage }

namespace State

/-- Entry to L6: the banks go off, management retention is lost (R276, R277). -/
def enterKeep (s : State) : State :=
  let s1 := (s.onMem MemSys.keepOnly).onFlt fun _ => {}
  let s2 := ((s1.onThm fun _ => {}).onCal fun c => { fieldSets := c.fieldSets }).onOtp fun o => { array := o.array }
  let s3 := ((s2.onTop fun _ => {}).onSys Sys.aonOnly).onTimes fun t => { passed := t.passed }
  (s3.onLinks fun _ => {}).onHost fun h => { h with msix := Vector.replicate 32 {}, pba := 0 }

/-- Entry to L7: nothing is kept; an exit boots as from power-on (R288). -/
def enterDormant (s : State) : State :=
  let s1 := (s.onMem fun _ => {}).onCal fun _ => {}
  let s2 := s1.onLadder fun l => { rung := l.rung, target := l.target, phase := l.phase, deepest := l.deepest }
  s2.onSys fun y => { variant := y.variant, fallback := y.fallback, phase := y.phase, ref := y.ref }

/-! ## Descending -/

/-- The conditions of L2 that the descent waits for: no activation, both answers, no OTP pulse (R26, R277, R280, R334). -/
def mayIdle (s : State) : Bool :=
  s.top.state != .activating && s.quiesce.purpose == .descent && s.bothRecorded && s.otp.op.isNone

/-- The next rung's gate lines act, or the descent waits or is abandoned. An activation in progress is waited for (R280). Entry to L2
first asks both planes for quiescence (R277). -/
def descendStep (s : State) : State :=
  match s.ladder.rung with
  | 0 => if s.top.state == .activating then s else s.onLadder fun l => l.reach 1
  | 1 =>
    if s.top.state != .activating && s.quiesce.purpose == .none then s.askPlanes .descent
    else if !s.mayIdle then s
    else if !s.dmaQuiet then s.abandon 4
    else s.enterIdle.onLadder fun l => l.reach 2
  | 2 => if s.linkReady then s.enterQuiet.onLadder fun l => l.reach 3 else s
  | 3 => s.onLadder fun l => l.reach 4
  | 4 => s.enterDeep.onLadder fun l => l.reach 5
  | 5 => s.enterKeep.onLadder fun l => l.reach 6
  | 6 => s.enterDormant.onLadder fun l => l.reach 7
  | _ => s

/-! ## Exit steps (R282) -/

/-- The calibration sets are loaded. -/
def loadSets (s : State) : State := s.onCal fun c => { c with sets := s.setsInForce }

/-- MEM_BANKPWR after a boot (R43): every present bank on, none retained. -/
def allBanksOn (s : State) : State := s.onMem fun m => { m with on := presentBanks s.sys.variant, ret := 0 }

/-- K_dev goes from the key latch into the key store of each present port (R175). -/
def copyKey (s : State) : State :=
  s.onPorts fun v => mapIdx (fun n q => if n < s.sys.variant.ports then { q with head := { q.head with keyStore := s.otp.keyLatch } } else q) v

/-- The clock losses detected while no fast clock ran are raised (R285). -/
def raiseOwedLosses (s : State) : State :=
  (s.sys.lossOwed.foldl (fun (t : State) bit => t.raise .management 0x07 1 bit) s).onSys fun y => { y with lossOwed := [] }

/-- The reference in use is present. -/
def referencePresent (s : State) : Bool := s.sys.ref == .xi25 || (s.sys.ref == .pcie && s.env.refck)

/-- Step D: the management plane is on MGMT; from L5 the retained banks return (R249). -/
def stepManagement (s : State) : State :=
  let s0 := if s.ladder.deepest = 5 then s.onMem MemSys.restoreBanks else s
  let s1 := if s.ladder.deepest ≤ 5 then s0.onThm Thm.resume else s0
  (if 5 ≤ s.ladder.deepest then s1.copyKey else s1).raiseOwedLosses

/-- The message links are watched again, from this moment on (R19). -/
def watchLinks (s : State) : State :=
  s.onLinks fun l => { l with dirs := l.dirs.map fun d => { d with heard := s.times.dev, sentAt := s.times.dev } }

/-- Step F: the control and data planes restart (R19, R96, R239, R306). -/
def stepPlanes (s : State) : State :=
  let s0 := if s.top.image.domain 1 then s.watchLinks.startFab else s.watchLinks
  let s1 := if s.top.image.domain 0 then s0.onTimes fun t => { t with loop := 0 } else s0
  let s2 := s1.onTlks fun v => v.map fun k =>
    if k.state = .suspended then { k with state := if s.flt.safe then .safe else .running } else k
  s2.onCal Cal.restart

/-- Step G: at L0 the bank power in force is that of MEM_BANKPWR, and the transparent test goes on. -/
def stepRun (s : State) : State :=
  s.onMem fun m => let m1 := m.applyBanks; { m1 with tt := { m1.tt with paused := false } }

/-- The ladder goes on to the step after `step`. -/
def advanceExit (step : Nat) (s : State) : State :=
  s.onLadder fun l => { l with phase := .exit (Ladder.nextStep l.deepest step) }

/-- An exit step completes. -/
def exitStep (step : Nat) (s : State) : State :=
  match step with
  | 0 => (s.onSys fun y => { y with x32ok := true }).advanceExit 0
  | 1 => s.advanceExit 1
  | 2 => s.bootReads.loadSets.allBanksOn.advanceExit 2
  | 3 => (s.stepManagement.onLadder fun l => { l with rung := 3 }).advanceExit 3
  | 4 =>
    if s.sys.fastLost then s.onLadder fun l => { l with phase := .stuck }
    else if s.referencePresent then
      ((s.onSys fun y => { y with pllLock := true }).onLadder fun l => { l with rung := 2 }).advanceExit 4
    else s
  | 5 => (s.stepPlanes.onLadder fun l => { l with rung := 1 }).advanceExit 5
  | _ => s.stepRun.onLadder fun l => { l with rung := 0, phase := .idle, done := l.done || !l.abandoned, abandoned := false }

end State

end Sys2Proof.Machine
end

