-- ==== Sys2Proof/Machine/Ladder.lean ====
section
/-!
DEFINITION. The commands of the quiescence exchange (R26, R66), of the power ladder (R277 to R282), of clock loss (R285) and of the supply
(R161, R288, R289), a chip reset's own work apart.
-/

namespace Sys2Proof.Machine

/-! ## Quiescence (R26) -/

namespace State

/-- For a descent to L5 or deeper each port commits its usage record before the answer (R180, R181). -/
def commitForDescent (s : State) : State :=
  let s1 := portNumbers.foldl (fun t p => t.triggerUsage p 2) s
  s1.onPorts fun v => v.map fun q => { q with head := { q.head with descentWait := q.head.usage.isSome } }

/-- The data plane answers: refused with a port armed or testing, after its usage commits for a deep descent, or confirmed. -/
def answerData (s : State) : State :=
  if s.dataQuiet && s.quiesce.purpose == .descent && 5 ≤ s.ladder.target then
    (s.setAnswer .data .waiting).commitForDescent.settleDescent
  else s.sendAnswer .data s.dataQuiet

/-- A plane asked answers (R26): TYPE 0x31 or 0x32. A request of an exchange that is over is dropped. -/
def answerRequest (plane : Plane) (s : State) : State :=
  if s.answerOf plane == .asked then (if plane = .data then s.answerData else s.sendAnswer plane s.controlQuiet) else s

/-- A plane's confirmation is recorded; after both, an activation holds the outputs at their old safe levels (R66). -/
def recordAnswer (plane : Plane) (s : State) : State :=
  let s1 := if s.answerOf plane == .confirmed then s.setAnswer plane .recorded else s
  if !s.bothRecorded && s1.bothRecorded && s.quiesce.purpose == .activation then s1.holdForSwap else s1

/-- The reason a plane has refused with, if it has. -/
def refusalOf (plane : Plane) (s : State) : Option Nat :=
  match s.answerOf plane with
  | .refused r => some r
  | _ => none

/-- A plane's refusal arrives: the descent is abandoned (R279), or the activation refused (R66). -/
def takeRefusal (reason : Nat) (s : State) : State :=
  if s.quiesce.purpose == .activation then
    ((s.onTop fun t => { t with state := .idle }).onQuiesce fun _ => {}).refuseActivate
  else s.abandon reason

end State

/-- QUIESCENCE_REQUEST (R26): a plane takes the TYPE 0x30 its link has delivered, and answers. -/
def execQuiescenceRequest (plane : Plane) (s : State) : Res :=
  .next (match s.arrived (fromManagement plane) typeQuiesceAsk fun _ => true with
    | some m =>
      if s.clocked && plane != .management then (s.takeMessage (fromManagement plane) m).answerRequest plane else s
    | none => s)

/-- QUIESCENCE_CONFIRM (R26): the management plane takes a plane's TYPE 0x31. -/
def execQuiescenceConfirm (plane : Plane) (s : State) : Res :=
  .next (match s.arrived (toManagement plane) typeQuiesceYes fun _ => true with
    | some m => if s.running && plane != .management then (s.takeMessage (toManagement plane) m).recordAnswer plane else s
    | none => s)

/-- QUIESCENCE_REFUSE (R26): the management plane takes a plane's TYPE 0x32. -/
def execQuiescenceRefuse (plane : Plane) (s : State) : Res :=
  .next (match s.arrived (toManagement plane) typeQuiesceNo fun _ => true with
    | some m =>
      if s.running && plane != .management then
        let s1 := s.takeMessage (toManagement plane) m
        match s1.refusalOf plane with
        | some r => s1.takeRefusal r
        | none => s1
      else s
    | none => s)

/-! ## The ladder (R277 to R282) -/

namespace State

/-- A MGT_LADDER write with GO = 1 (R277, R279, R280). TARGET is stored either way. -/
def ladderGo (target : Nat) (s : State) : State :=
  let s1 := s.onLadder fun l => { l with targetReg := target }
  let rung := s.ladder.rung
  if s.ladder.busy || !s.running then s1.onLadder fun l => { l with cerr := true }
  else if target = rung then s1.onLadder fun l => { l with cerr := true, reason := 1 }
  else if rung < target then s1.onLadder (Ladder.startDescent target)
  else if 2 ≤ rung then s1.wake .command
  else s1.onLadder fun l => { l.startExit with abandoned := false }

/-- MGT_LADDER is served: by the management plane, and at L4 to L6 from the AON domain (R277, R344). -/
def aonServed (s : State) : Bool := s.sys.phase != .inReset && s.ladder.rung ≤ 6

end State

/-- LADDER_GO (R277). -/
def execLadderGo (target : BitVec 3) (s : State) : Res := .next (if s.aonServed then s.ladderGo target.toNat else s)

/-- RUNG_ENTRY (R277): the next rung of a descent. -/
def execRungEntry (s : State) : Res :=
  .next (if s.running && s.ladder.phase == .descend && s.ladder.rung < s.ladder.target then s.descendStep else s)

/-- LINK_WAIT_TIMEOUT (R278): 100 ms at L2 without the link condition. -/
def execLinkWaitTimeout (s : State) : Res := .next (if s.linkWait then s.abandon 6 else s)

/-- A change the board makes at a pin: a routed input terminal of a sprig with WAKE set sees another raw level (R97). -/
def State.wakeSprig (n : Fin 96) (c : PinChange) (s : State) : Bool :=
  (s.sprig n).wake && (s.inputRoute n c.term.val).any fun r => s.pinLevel r.pin != s.padLevel r.pin c.drive

/-- What a wake source asks of the state to be one (R97, R281): a change at a pin, or a link that is there. -/
def State.wakeSource (source : WakeSource) (s : State) : Bool :=
  match source with
  | .sprig n c => s.wakeSprig n c
  | .pcie => s.host.link != .down
  | _ => true

/-- What the source leaves in the state: the pin's new level, or the PCIe link at L0. -/
def State.noteWake (source : WakeSource) (s : State) : State :=
  match source with
  | .sprig n c => s.senseInputs n [c]
  | .pcie => if s.ladder.wakeActs .pcie then s.onHost fun h => { h with link := .l0 } else s
  | _ => s

/-- WAKE_EVENT (R281). The host that wakes the part over PCIe takes its link to L0. -/
def execWakeEvent (source : WakeSource) (s : State) : Res :=
  .next (if s.running && s.wakeSource source then (s.noteWake source).wake source else s)

/-- AON_TIMER_EXPIRY (R281): MGT_AONTIMER periods since the rung was reached. -/
def execAonTimerExpiry (s : State) : Res := .next (if s.running then s.wake .timer else s)

/-! ## Clock loss (R285) -/

/-- Bit of MGT_CLKSTAT of a clock. -/
def lossBit : WatchedClock → Nat
  | .x32 => 8
  | .reference => 9
  | .pll => 10
  | .mgmtRc => 11

namespace State

/-- The clock is watched at this rung. -/
def watched (clk : WatchedClock) (s : State) : Bool :=
  match clk with
  | .x32 => s.sys.x32ok && s.ladder.rung ≤ 6
  | .reference => s.sys.ref != .none && s.ladder.rung ≤ 4
  | .pll => s.sys.pllLock && s.ladder.rung ≤ 2
  | .mgmtRc => s.ladder.rung ≤ 3

/-- What the loss of a clock does to the clocks: AON goes to its backup RC; without reference or PLL the fast clocks stay stopped, at L3
where the management plane has MGMT. -/
def loseClock (clk : WatchedClock) (s : State) : State :=
  match clk with
  | .x32 => s.onSys fun y => { y with x32ok := false, x32backup := true }
  | .mgmtRc => s
  | _ =>
    if s.ladder.rung ≤ 3 then
      ((if s.ladder.rung ≤ 2 then s.enterQuiet else s).onSys fun y => { y with fastLost := true, pllLock := false }).onLadder
        fun l => { l with rung := 3, phase := .stuck }
    else s.onSys fun y => { y with fastLost := true }

/-- Source 0x07: at once where the collector runs on a fast clock, else at the end of exit step D. -/
def raiseLoss (bit : Nat) (s : State) : State :=
  if s.ladder.rung ≤ 3 then s.raise .management 0x07 1 bit
  else s.onSys fun y => { y with lossOwed := y.lossOwed ++ [bit] }

/-- A clock is lost. -/
def clockLoss (clk : WatchedClock) (s : State) : State :=
  let bit := lossBit clk
  let s1 := s.onSys fun y => { y with clkLoss := y.clkLoss ||| (1#4 <<< (bit - 8)) }
  (((if 2 ≤ s.ladder.rung then s1.wake .clockLoss else s1).loseClock clk).raiseLoss bit)

end State

/-! ## Supply (R161, R288) -/

namespace State

/-- A supply warning is entered: source 0x01; at L0 and L1 every armed port stops with cause SUPPLY at its last committed line, and an
OTP pulse ends. -/
def enterWarning (s : State) : State :=
  let s1 := s.onSys fun y => { y with warn := true, recover := false, dips := satAdd 0xFF y.dips 1 }
  let s2 := s1.raise .management 0x01 1 0
  if s.ladder.rung ≤ 1 then
    (portNumbers.foldl (fun t p => t.seamCause p .supply (t.port p).pdp.f) s2).abortOtp .supplyWarning
  else s2

/-- The warning ends: the cause clears on every port (R161). -/
def leaveWarning (s : State) : State :=
  let s1 := s.onSys fun y => { y with warn := false, recover := false }
  portNumbers.foldl (fun t p => (t.onPort p fun q => { q with seam := q.seam.mark .supply false }).pollSeam p) s1

/-- MGT_SUPSTAT. -/
def supStat (s : State) : Word :=
  pack [flag 31 s.sys.warn, flag 30 s.sys.recover, (16, 8, s.sys.dips), (0, 16, s.sys.vinReg)]

/-- The supply monitor watches the warning level (R288). -/
def supplyWatched (s : State) : Bool := s.sys.phase != .inReset && s.ladder.rung ≤ 4

end State

/-- SUPPLY_WARNING (R161, R288): the warning is entered; a new dip while it holds stops the 50 µs timer. -/
def execSupplyWarning (s : State) : Res :=
  .next (if s.supplyWatched then
    if s.sys.warn then s.onSys fun y => { y with recover := false } else s.enterWarning
  else s)

/-- SUPPLY_RECOVER (R288): VIN rises above 2.65 V, and the 50 µs timer runs. -/
def execSupplyRecover (s : State) : Res :=
  .next (if s.supplyWatched && s.sys.warn then s.onSys fun y => { y with recover := true } else s)

/-- SUPPLY_WARNING_CLEAR (R161, R288): VIN above 2.65 V for 50 µs. -/
def execSupplyWarningClear (s : State) : Res :=
  .next (if s.supplyWatched && s.sys.warn && s.sys.recover then s.leaveWarning else s)

/-- DIPS_READ (R288): MGT_SUPSTAT, whose DIPS clear. -/
def execDipsRead (s : State) : Res := .next (s.mgmtRead State.supStat fun t => t.onSys fun y => { y with dips := 0 })

/-! ## Registers -/

/-- MGT_LSTAT. -/
def State.lstat (s : State) : Word :=
  let l := s.ladder
  pack [(16, 8, l.reason), flag 10 s.linkWait, flag 9 l.done, flag 8 l.cerr, flag 7 l.busy, (4, 3, l.target), (0, 3, l.rung)]

def RefSel.code : RefSel → Nat
  | .none => 0
  | .xi25 => 1
  | .pcie => 2

/-- MGT_CLKSTAT. -/
def Sys.clkWord (y : Sys) : Word :=
  pack [(8, 4, y.clkLoss.toNat), flag 4 y.x32backup, flag 3 y.x32ok, flag 2 y.pllLock, (0, 2, y.ref.code)]

end Sys2Proof.Machine
end

