-- ==== Sys2Proof/Machine/Otp.lean ====
section
/-!
DEFINITION. The commands of OTP programming (R332 to R334).
-/

namespace Sys2Proof.Machine

/-- OTP_PROG_GO (R332): on the WORD, BIT and SRC that OTP_PROG holds. -/
def execOtpProgGo (s : State) : Res := .next (s.mgmtWrite State.startOtp)

/-- OTP_PULSE_VERIFY (R333): `tight` and `loose` are what the pulsed cell then reads under the two references. -/
def execOtpPulseVerify (tight loose : Bool) (s : State) : Res :=
  .next (match s.otp.op with
    | some op => s.onOtp fun o => o.afterPulse op tight loose
    | none => s)

/-- OTP_ABORT (R334). -/
def execOtpAbort (cause : OtpAbortCause) (s : State) : Res := .next (s.abortOtp cause)

/-! ## Registers -/

/-- OTP_STAT. -/
def Otp.statWord (o : Otp) : Word :=
  pack [(8, 8, o.reason), flag 4 o.aborted, flag 3 o.fail, flag 2 o.cerr, flag 1 o.done, flag 0 o.op.isSome]

/-- OTP_REGSTAT. -/
def Otp.regionWord (o : Otp) : Word :=
  pack ((List.range 7).map fun r => (2 * r, 2, (elem? o.regions r).getD 0))

/-- OTP_RDATA and OTP_RMARG: 0 for words 32 to 40 and reserved words. -/
def Otp.hidden (w : Nat) : Bool := (32 ≤ w && w ≤ 40) || otpReserved w

def Otp.rdata (o : Otp) : Word := if Otp.hidden o.raddr then 0 else (elem? o.force o.raddr).getD 0

def Otp.rmarg (o : Otp) : Word := if Otp.hidden o.raddr then 0 else (elem? o.marginal o.raddr).getD 0

/-- OTP_POLICY. -/
def Otp.policyWord (o : Otp) : Word := ((elem? o.force 42).getD 0) &&& 7

/-- OTP_PROG as it reads back. -/
def Otp.progWordReg (o : Otp) : Word := pack [flag 16 o.progSrc, (8, 7, o.progWord), (0, 5, o.progBit)]

/-- An OTP_PROG write: the fields, then GO. -/
def State.writeOtpProg (w : Word) (s : State) : State :=
  let s1 := s.onOtp fun o => { o with progSrc := w.getLsbD 16, progWord := fld w 8 7, progBit := fld w 0 5 }
  if w.getLsbD 31 then s1.startOtp else s1

end Sys2Proof.Machine
end

