-- ==== Sys2Proof/Machine/Reset.lean ====
section
/-!
DEFINITION. Chip resets and the boot order (R346 to R348), the PCIe link's events (R278, R339), the clocks' start (R284, R348), and the test
access port (R349), whose test modes end in a chip reset.
-/

namespace Sys2Proof.Machine

/-! ## Chip reset (R346, R347) -/

def orCauses (a b : ResetCauses) : ResetCauses :=
  { power := a.power || b.power, pin := a.pin || b.pin, cmd := a.cmd || b.cmd, hot := a.hot || b.hot, fault := a.fault || b.fault
    vcore := a.vcore || b.vcore }

def anyCause (a : ResetCauses) : Bool := a.power || a.pin || a.cmd || a.hot || a.fault || a.vcore

/-- The fault collector keeps its records (R314, R347), which become visible at the end of the boot reads. -/
def Flt.survive (f : Flt) : Flt :=
  { records := f.records.map fun r => { r with preReset := true, age := r.age + 1, visible := false }, nextId := f.nextId }

/-- The memories a chip reset keeps (R42, R347): keep RAM with its usage entries and remap mirror, and the topiary slots, exchanged
where an image is active. -/
def MemSys.survive (active : Bool) (m : MemSys) : MemSys :=
  { keepMgmt := m.keepMgmt, keepDma := m.keepDma, usage := m.usage, remap := m.remap
    staged := if active then m.active else m.staged, active := if active then m.staged else m.active }

/-- The AON ladder registers, kept with the AON domain (R347). -/
def Ladder.survive (l : Ladder) : Ladder :=
  { targetReg := l.targetReg, reason := l.reason, done := l.done, cerr := l.cerr, wakeSrc := l.wakeSrc, wakeEn := l.wakeEn
    aonTimer := l.aonTimer }

/-- The test access port is no part of what a chip reset resets. -/
def HostIf.survive (h : HostIf) : HostIf :=
  { tap := h.tap, tapReset := h.tapReset, tapOut := h.tapOut, boundary := h.boundary }

namespace State

/-- What is no part of the block, or is no state that power holds: the queue, the free values, the board, the nodes, the host's memory, the OTP
array. -/
def outside (s : State) : State :=
  { State.reset with pending := s.pending, free := s.free, env := s.env, nodes := s.nodes, dma := { hostMem := s.dma.hostMem }
                     fab := s.fab.outside, otp := { array := s.otp.array }, times := { passed := s.times.passed } }

/-- What every cause but Power keeps beside it (R347). -/
def survivors (s : State) : State :=
  { s.outside with flt := s.flt.survive, mem := s.mem.survive s.top.activeValid, cal := { fieldSets := s.cal.fieldSets }
                   ladder := s.ladder.survive, host := s.host.survive }

/-- A chip reset takes effect (R346): MGT_RSTCAUSE takes its causes, with those of the reset it joins; an OTP pulse ends (R334). -/
def chipReset (causes : ResetCauses) (source : Nat) (s : State) : State :=
  let s1 := s.dropOtp
  let base := if causes.power then s1.outside else s1.survivors
  let held := s.sys.phase == .inReset
  { base with
    sys := { causes := if held then orCauses s.sys.causes causes else causes
             causeSource := if causes.fault then source else if held then s.sys.causeSource else 0
             x32ok := !causes.power && s.sys.x32ok, x32backup := !causes.power && s.sys.x32backup } }

/-- The chip reset of a command: with it acts the chip-reset reaction of a captured detection (R315). -/
def resetFor (causes : ResetCauses) (s : State) : State :=
  match s.sys.resetOwed with
  | some src => s.chipReset { causes with fault := true } src
  | none => s.chipReset causes 0

end State

/-- A chip reset can act: not at L7, where nothing but the WAKE comparator runs, until exit step A has restarted the AON domain (R288,
R356). -/
def State.resetSensed (s : State) : Bool :=
  s.ladder.rung != 7 || (match s.ladder.phase with
    | .exit k => k != 0
    | _ => false)

/-- CHIP_RESET (R346): the causes that hold, and the chip-reset reaction where one is owed. -/
def execChipReset (causes : ResetCauses) (s : State) : Res :=
  .next (if s.resetSensed && (anyCause causes || s.sys.resetOwed.isSome) then s.resetFor causes else s)

/-- An MGT_CMD write (R346); other keys and values are ignored. -/
def State.writeCmd (value : Word) (s : State) : State :=
  if fld value 16 16 = 0x5253 && fld value 0 8 = 1 then s.resetFor { cmd := true } else s

/-- MGT_CMD_RESET (R346). -/
def execMgtCmdReset (value : Word) (s : State) : Res := .next (s.mgmtWrite (State.writeCmd value))

/-- VCORE_FAULT (R289), watched at L0 to L4. -/
def execVcoreFault (s : State) : Res :=
  .next (if s.sys.phase != .inReset && s.ladder.rung ≤ 4 then s.resetFor { vcore := true } else s)

/-! ## Boot (R348) -/

namespace State

/-- The reference is chosen and the part runs: PLL locked, host bridge running. -/
def startClocks (ref : RefSel) (s : State) : State :=
  (s.onSys fun y => { y with phase := .running, ref := ref, pllLock := true }).watchLinks

/-- The boot order: OTP, calibration sets, K_dev, the banks (R43), surviving records visible; then the reference of R284. -/
def bootUp (xtal : Bool) (s : State) : State :=
  let s1 := s.onSys fun y => { y with phase := .waitReference, x32backup := !y.x32ok }
  let s2 := (s1.bootReads.loadSets.copyKey.allBanksOn.onMem MemSys.applyBanks).onFlt fun f =>
    { f with records := f.records.map fun r => if r.preReset then { r with visible := true } else r }
  if xtal then s2.startClocks .xi25 else if s.env.refck then s2.startClocks .pcie else s2

end State

/-- BOOT (R348): the last cause of a chip reset has ended. -/
def execBoot (xtalOscillates : Bool) (s : State) : Res :=
  .next (if s.sys.phase == .inReset then s.bootUp xtalOscillates else s)

/-- PCIE_REFERENCE_PRESENT (R284): a boot that waits for it goes on. -/
def execPcieReferencePresent (s : State) : Res :=
  let s1 := s.onEnv fun e => { e with refck := true }
  .next (if s.sys.phase == .waitReference then s1.startClocks .pcie else s1)

/-- CRYSTAL_32K_START (R348). -/
def execCrystal32kStart (s : State) : Res :=
  .next (if s.ladder.rung ≤ 6 then s.onSys fun y => { y with x32ok := true, x32backup := false } else s)

/-! ## PCIe link (R278, R339) -/

/-- The part has an endpoint that trains (R7, R336). -/
def State.hasPcie (s : State) : Bool := s.sys.variant.pcie && !s.sys.fallback

/-- PCIE_LINK_UP (R348): the link has trained, which needs the reference and the host bridge. -/
def execPcieLinkUp (s : State) : Res :=
  .next (if s.running && s.hasPcie && s.ladder.rung ≤ 2 && s.env.refck then s.onHost fun h => { h with link := .l0 } else s)

/-- PCIE_LINK_DOWN (R339): no reset; the endpoint retrains. -/
def execPcieLinkDown (s : State) : Res := .next (s.onHost fun h => { h with link := .down })

/-- PCIE_LINK_POWER_STATE (R278, R339): the endpoint takes the link where the host directs. -/
def execPcieLinkPowerState (state : LinkPower) (s : State) : Res :=
  .next (if s.host.link != .down && s.running then
    s.onHost fun h => { h with link := match state with
      | .l1 => .l1
      | .l23 => .l23 }
  else s)

/-- PCIE_HOT_RESET (R339): received on a trained link, a chip reset. -/
def execPcieHotReset (s : State) : Res :=
  .next (if s.running && s.host.link != .down then s.resetFor { hot := true } else s)

/-! ## JTAG (R349) -/

namespace State

/-- DEBUG_OFF of the policy in force (R327). -/
def debugOff (s : State) : Bool := s.otp.policyWord.getLsbD 1

/-- The test access port takes an instruction and shifts out what it captured. An instruction other than a test one ends a test mode, with a
chip reset. -/
def tapLoad (i : TapInstr) (out : List Bool) (s : State) : State :=
  let s1 := if s.sys.jtagtm then s.resetFor {} else s
  s1.onHost fun h => { h with tap := i, tapReset := false, tapOut := out }

/-- A test mode: JTAGTM and the test regime (R298). -/
def tapTest (i : TapInstr) (out : List Bool) (s : State) : State :=
  (s.changeRegime fun t => t.onSys fun y => { y with jtagtm := true }).onHost fun h => { h with tap := i, tapReset := false, tapOut := out }

/-- The 32 bits of IDCODE, bit 0 first. -/
def idcodeBits : List Bool := (List.range 32).map fun k => (0x21A40B4B : Word).getLsbD k

end State

/-- BYPASS: its one-bit register captures 0. -/
def execBypass (s : State) : Res := .next (s.tapLoad .bypass [false])

/-- IDCODE of stepping 2. -/
def execIdcode (s : State) : Res := .next (s.tapLoad .idcode State.idcodeBits)

/-- SAMPLE/PRELOAD: the balls are captured, and the boundary register is loaded. -/
def execSamplePreload (bits : List Bool) (s : State) : Res :=
  .next (((s.tapLoad .samplePreload (Config.sampledPins s.free)).onHost fun h => { h with boundary := bits }).bumpFree)

/-- EXTEST. -/
def execExtest (s : State) : Res := .next ((s.tapTest .extest (Config.sampledPins s.free)).bumpFree)

/-- DEBUG_TEST_INSTRUCTION: BYPASS where DEBUG_OFF is in force; else a test mode whose further effect the spec does not give (DESIGN CHOICE,
log entry 130). -/
def execDebugTestInstruction (s : State) : Res :=
  .next (if s.debugOff then s.tapLoad .bypass [false] else s.tapTest .debug [])

/-- JTAG_TEST_EXIT: a test mode is left, with a chip reset, to the instruction that Test-Logic-Reset selects. -/
def execJtagTestExit (s : State) : Res :=
  .next (if s.sys.jtagtm then (s.resetFor {}).onHost fun h => { h with tap := .idcode } else s)

/-- TRST_N low: Test-Logic-Reset, which leaves a test mode too. -/
def execTrstNLow (s : State) : Res :=
  .next ((if s.sys.jtagtm then s.resetFor {} else s).onHost fun h => { h with tap := .idcode, tapReset := true, tapOut := [] })

/-! ## Registers -/

/-- MGT_RSTCAUSE. -/
def Sys.causeWord (y : Sys) : Word :=
  pack [(8, 8, y.causeSource), flag 5 y.causes.vcore, flag 4 y.causes.fault, flag 3 y.causes.hot, flag 2 y.causes.cmd,
    flag 1 y.causes.pin, flag 0 y.causes.power]

/-- MGT_TEST. -/
def Sys.testWord (y : Sys) : Word := pack [flag 1 y.jtagtm, flag 0 y.permit]

end Sys2Proof.Machine
end

