-- ==== Sys2Proof/Machine/Topiary.lean ====
section
/-!
DEFINITION. The commands of the topiary loader (R43 to R45, R64 to R68).
-/

namespace Sys2Proof.Machine

/-! ## TOP_SDATA -/

namespace State

/-- WADDR advances after each TOP_SDATA access, from 0xFFFC to 0x0000. -/
def advanceWaddr (s : State) : State := s.onTop fun t => { t with waddr := (t.waddr + 1) % 16384 }

/-- A TOP_SDATA write (R44): to the staged slot while STATE is idle; it withdraws the staged image's validity. -/
def writeSdata (data : Word) (s : State) : State :=
  if s.top.slotSel || s.top.state != .idle then s.advanceWaddr
  else
    ((s.onMem fun m => m.writeBytes 7 (4 * s.top.waddr) (leBytes 4 data.toNat)).onTop fun t =>
      { t with stagedValid := false, prepared := none }).advanceWaddr

/-- MEMSEL of the slot TOP_SADDR selects. -/
def sdataMem (s : State) : Nat := if s.top.slotSel then 8 else 7

/-- A TOP_SDATA read: a checked read of the selected slot (R247, R254). -/
def readSdata (s : State) : State :=
  (s.noteRead s.sdataMem (s.mem.read s.sdataMem (4 * s.top.waddr) 4) false).advanceWaddr

end State

/-- TOP_SDATA_WRITE (R44). -/
def execTopSdataWrite (data : Word) (s : State) : Res := .next (s.mgmtWrite (State.writeSdata data))

/-- TOP_SDATA_READ (R43). -/
def execTopSdataRead (s : State) : Res :=
  .next (s.mgmtRead (fun t => t.mem.word32 t.sdataMem (4 * t.top.waddr)) State.readSdata)

/-! ## Validation -/

namespace State

/-- VALIDATE (R44, R64): at L4 or deeper it ends at once with code 0x0F. -/
def startValidation (s : State) : State :=
  if s.top.state != .idle then s
  else if 4 ≤ s.ladder.rung then s.rejectStaged (0x0F, 0)
  else s.onTop fun t => { t with state := .validating, actAfterVal := false }

/-- ACTIVATE (R44, R66). -/
def startActivation (s : State) : State := if s.top.state != .idle then s.refuseActivate else s.requestActivation

/-- CLEAR (R44). -/
def startClear (s : State) : State :=
  if s.top.state != .idle then s else s.onTop fun t => { t with state := .clearing, stagedValid := false, prepared := none }

/-- A TOP_CTRL write (R45): CLEAR goes alone; VALIDATE with ACTIVATE validates first. -/
def writeTopCtrl (w : Word) (s : State) : State :=
  let v := w.getLsbD 0
  let a := w.getLsbD 1
  if w.getLsbD 2 then s.startClear
  else if v && a then
    (if s.top.state != .idle then s.refuseActivate
     else if 4 ≤ s.ladder.rung then s.startValidation
     else s.startValidation.onTop fun t => { t with actAfterVal := true })
  else if v then s.startValidation
  else if a then s.startActivation else s

/-- The validation ends (R64): the sources of what it read, the verdict, and the activation that was to follow (R45). -/
def endValidation (s : State) : State :=
  let x := s.judgeStaged
  let s1 := s.noteRead 7 x.2.2 false
  match x.1 with
  | some r => s1.rejectStaged r
  | none =>
    let s2 := s1.acceptStaged x.2.1
    if s.top.actAfterVal then s2.requestActivation else s2

end State

/-- VALIDATE (R44, R64). -/
def execValidate (s : State) : Res := .next (if s.running then s.startValidation else s)

/-- VALIDATION_END (R64). -/
def execValidationEnd (s : State) : Res :=
  .next (if s.mgmtServed && s.top.state == .validating then s.endValidation else s)

/-! ## Activation and clear -/

/-- ACTIVATE (R44, R66). -/
def execActivate (s : State) : Res := .next (s.mgmtWrite State.startActivation)

/-- ACTIVATION_SWAP (R66, R67): once both planes have confirmed. -/
def execActivationSwap (s : State) : Res :=
  .next (match s.top.prepared with
    | some i =>
      if s.running && s.swapHold then s.swapImage i else s
    | none => s)

/-- CLEAR (R45). -/
def execClear (s : State) : Res := .next (s.mgmtWrite State.startClear)

/-- CLEAR_DONE (R43): the staged slot is filled with 0x00. -/
def execClearDone (s : State) : Res :=
  .next (if s.mgmtServed && s.top.state == .clearing then
    (s.onMem fun m => { m with staged := Mem.zeroed 0x10000 }).onTop fun t => { t with state := .idle }
  else s)

/-! ## Registers -/

def LoaderState.code : LoaderState → Nat
  | .idle => 0
  | .validating => 1
  | .activating => 2
  | .clearing => 3

/-- TOP_STAT. -/
def Top.statWord (t : Top) : Word :=
  pack [(16, 16, t.offset), (8, 8, t.reject), flag 6 t.actRefused, flag 5 t.swapDone, flag 4 t.valDone, flag 3 t.activeValid,
    flag 2 t.stagedValid, (0, 2, t.state.code)]

end Sys2Proof.Machine
end

