-- ==== Sys2Proof/Machine/RegsMgmt.lean ====
section
/-!
DEFINITION. The registers of the management plane by offset within their block: MGT, THM, FLT, OTP, CAL, TOP, MEM, and the MSI-X table and
pending bits. For each block: the word a read returns, what the read does, what a write does. An unassigned offset reads 0 and ignores
writes (R29).
-/

namespace Sys2Proof.Machine

/-! ## Capability registers (R6) -/

/-- MGT_CAP0. -/
def Sys.cap0 (y : Sys) : Word :=
  pack [(28, 4, 2), (20, 4, y.variant.tlks), (16, 4, y.variant.cores), (12, 4, y.variant.ports), (0, 8, y.variant.sprigs)]

/-- MGT_CAP1. -/
def Sys.cap1 (y : Sys) : Word :=
  pack [(16, 8, y.variant.banks), (8, 8, y.variant.adcs), (4, 4, y.variant.engines), flag 3 y.variant.pcie, flag 2 true,
    flag 1 y.fallback]

/-! ## MSI-X table (R338) -/

/-- A word of the table. -/
def HostIf.msixWord (k : Nat) (h : HostIf) : Word :=
  let e := (elem? h.msix (k / 4)).getD {}
  match k % 4 with
  | 0 => e.addrLo
  | 1 => e.addrHi
  | 2 => e.data
  | _ => e.mask

/-- An entry with one of its words written; bits 1:0 of the address and bits 31:1 of the vector control read 0. -/
def MsixEntry.put (k : Nat) (w : Word) (e : MsixEntry) : MsixEntry :=
  match k with
  | 0 => { e with addrLo := w &&& 0xFFFFFFFC }
  | 1 => { e with addrHi := w }
  | 2 => { e with data := w }
  | _ => { e with mask := w &&& 1 }

/-- Pending messages whose vector is no longer masked go out. -/
def HostIf.settleMsix (h : HostIf) : HostIf :=
  if h.msixEn && !h.msixMask then
    (List.range 32).foldl (fun (k : HostIf) v =>
      if k.pba.getLsbD v && !(elem? k.msix v).any (fun e => e.mask.getLsbD 0) then
        { k with pba := k.pba &&& ~~~(1#32 <<< v), sent := updNat k.sent v (· + 1) }
      else k) h
  else h

/-- A write of a table word. -/
def HostIf.writeMsix (k : Nat) (w : Word) (h : HostIf) : HostIf :=
  ({ h with msix := updNat h.msix (k / 4) (MsixEntry.put (k % 4) w) }).settleMsix

namespace State

/-! ## MGT -/

/-- What a read of a MGT offset returns. -/
def mgtWord (off : Nat) (s : State) : Word :=
  match off with
  | 0x10 => s.sys.cap0
  | 0x14 => s.sys.cap1
  | 0x20 => pack [(0, 3, s.ladder.targetReg)]
  | 0x24 => s.lstat
  | 0x28 => s.ladder.wakeSrc.setWidth 32
  | 0x2C => s.ladder.wakeEn.setWidth 32
  | 0x30 => s.ladder.aonTimer
  | 0x40 => s.supStat
  | 0x44 => s.sys.clkWord
  | 0x54 => s.sys.testWord
  | 0x58 => s.sys.causeWord
  | 0x200 => s.links.inj.word
  | 0x204 => s.links.inj.bits
  | 0x208 => BitVec.ofNat 32 s.links.inj.count
  | 0x9000 => s.host.pba
  | _ => if 0x8000 ≤ off && off < 0x8200 then s.host.msixWord ((off - 0x8000) / 4) else 0

/-- The RC fields of MGT. -/
def mgtRead (off : Nat) (s : State) : State :=
  match off with
  | 0x40 => s.onSys fun y => { y with dips := 0 }
  | 0x208 => s.onLinks fun l => { l with inj := { l.inj with count := 0 } }
  | _ => s

/-- A MGT_LADDER write. -/
def writeLadder (w : Word) (s : State) : State :=
  if w.getLsbD 31 then s.ladderGo (fld w 0 3) else s.onLadder fun l => { l with targetReg := fld w 0 3 }

/-- A MGT_LINJCTRL write: the fields, STOP, then GO. -/
def writeLinkInjection (w : Word) (s : State) : State :=
  let s1 := s.onLinks fun l => { l with inj := l.inj.writeFields w }
  let s2 := if w.getLsbD 30 then s1.onLinks Links.stopInjection else s1
  if w.getLsbD 31 then s2.startLinkInjection else s2

/-- The AON ladder registers, MGT_LADDER to MGT_AONTIMER. -/
def writeAon (off : Nat) (w : Word) (s : State) : State :=
  match off with
  | 0x20 => s.writeLadder w
  | 0x24 => s.onLadder fun l => { l with done := w1c w 9 l.done, cerr := w1c w 8 l.cerr }
  | 0x28 => s.onLadder fun l => { l with wakeSrc := l.wakeSrc &&& ~~~(w.setWidth 7) }
  | 0x2C => s.onLadder fun l => { l with wakeEn := (w.setWidth 7 &&& 0x1E) ||| 0x61 }
  | 0x30 => s.onLadder fun l => { l with aonTimer := w }
  | _ => s

/-- A write of a MGT offset. -/
def mgtWriteReg (off : Nat) (w : Word) (s : State) : State :=
  match off with
  | 0x44 => s.onSys fun y => { y with clkLoss := y.clkLoss &&& ~~~((w >>> 8).setWidth 4) }
  | 0x50 => s.writeCmd w
  | 0x54 => s.writePermit (w.getLsbD 0)
  | 0x200 => s.writeLinkInjection w
  | 0x204 => s.onLinks fun l => { l with inj := { l.inj with bits := w } }
  | _ =>
    if 0x20 ≤ off && off ≤ 0x30 then s.writeAon off w
    else if 0x8000 ≤ off && off < 0x8200 then s.onHost fun h => h.writeMsix ((off - 0x8000) / 4) w
    else s

/-! ## THM -/

def thmWord (off : Nat) (s : State) : Word :=
  match off with
  | 0x00 => s.thm.force.setWidth 32
  | 0x04 => s.thmStat
  | 0x50 => pack [(0, 16, sixteenths s.thm.ta)]
  | 0x54 => pack [(0, 16, s.thm.milliwatts)]
  | 0x58 => pack [(16, 16, s.thm.tau3), (0, 16, s.thm.r3)]
  | 0x5C => pack [(0, 16, s.thm.impl)]
  | _ =>
    if 0x10 ≤ off && off ≤ 0x24 then s.thm.zoneWord ((off - 0x10) / 4)
    else if 0x30 ≤ off && off ≤ 0x48 then s.thm.sensorWord ((off - 0x30) / 4) else 0

def thmRead (off : Nat) (s : State) : State := if off = 0x5C then s.onThm fun h => { h with impl := 0 } else s

def thmWriteReg (off : Nat) (w : Word) (s : State) : State :=
  match off with
  | 0x00 => s.onThm fun h => { h with force := w.setWidth 6 }
  | 0x58 => s.onThm fun h => { h with tau3 := fld w 16 16, r3 := fld w 0 16 }
  | _ => s

/-! ## FLT -/

/-- A field of the record that the last FLT_HEAD read latched. -/
def latchedWord (off : Nat) (s : State) : Word :=
  match s.flt.latched with
  | none => 0
  | some r =>
    match off with
    | 0x04 => pack [(24, 8, r.kind), (0, 24, r.index)]
    | 0x08 => r.time.setWidth 32
    | 0x0C => pack [(0, 16, r.time.toNat / 2 ^ 32)]
    | 0x20 => pack [(0, 16, r.merges)]
    | 0x24 => pack [(0, 5, r.react.toNat)]
    | _ => if 0x10 ≤ off && off ≤ 0x1C then r.mask.extractLsb' (8 * (off - 0x10)) 32 else 0

def fltWord (off : Nat) (s : State) : Word :=
  match off with
  | 0x00 => s.flt.headWord
  | 0x34 => s.fltStat
  | 0x3C => pack [flag 0 s.flt.irqen]
  | _ =>
    if 0x400 ≤ off && off < 0x600 then
      let n := (off - 0x400) / 4
      (s.flt.reactOf n).word n
    else s.latchedWord off

def fltRead (off : Nat) (s : State) : State :=
  match off with
  | 0x00 => s.onFlt fun f => { f with latched := f.head }
  | 0x34 => s.onFlt fun f => { f with lost := 0 }
  | _ => s

def fltWriteReg (off : Nat) (w : Word) (s : State) : State :=
  match off with
  | 0x30 => s.onFlt (Flt.ack (w.setWidth 16))
  | 0x34 => s.onFlt fun f =>
      { f with ovf := w1c w 5 f.ovf, ovfReact := if w.getLsbD 5 then 0 else f.ovfReact, cerr := w1c w 4 f.cerr }
  | 0x38 => if w.getLsbD 0 then s.writeSafeEnd else s
  | 0x3C => s.onFlt fun f => { f with irqen := w.getLsbD 0 }
  | _ => if 0x400 ≤ off && off < 0x600 then s.onFlt (Flt.writeReact ((off - 0x400) / 4) w) else s

/-! ## OTP -/

def otpWord (off : Nat) (s : State) : Word :=
  match off with
  | 0x00 => s.otp.statWord
  | 0x04 => s.otp.regionWord
  | 0x08 => s.otp.policyWord
  | 0x0C => pack [(16, 16, s.otp.weak), (0, 16, s.otp.marginalBits)]
  | 0x10 => pack [(0, 7, s.otp.raddr)]
  | 0x14 => s.otp.rdata
  | 0x18 => s.otp.rmarg
  | 0x20 => s.otp.progWordReg
  | _ => 0

def otpWriteReg (off : Nat) (w : Word) (s : State) : State :=
  match off with
  | 0x00 => s.onOtp fun o => { o with aborted := w1c w 4 o.aborted, fail := w1c w 3 o.fail, cerr := w1c w 2 o.cerr, done := w1c w 1 o.done }
  | 0x10 => s.onOtp fun o => { o with raddr := fld w 0 7 }
  | 0x20 => s.writeOtpProg w
  | 0x24 => s.onOtp fun o => { o with punlock := w }
  | _ => s

/-! ## CAL -/

/-- A converter register names an absent instance (R33). -/
def calAbsent (off : Nat) (s : State) : Bool :=
  if 0x100 ≤ off && off < 0x200 then s.sys.variant.adcs ≤ (off - 0x100) / 0x10 && off % 0x10 < 0x0C
  else if 0x300 ≤ off && off < 0x340 then s.sys.variant.ports ≤ (off - 0x300) / 0x10 && off % 0x10 < 0x08 else false

/-- A word of a converter. -/
def chanWord (c : CalCh) (k : Nat) : Word :=
  match k with
  | 0 => BitVec.ofNat 32 c.ofs
  | 1 => BitVec.ofNat 32 c.gain
  | 2 => c.statWord
  | _ => 0

def calWord (off : Nat) (s : State) : Word :=
  match off with
  | 0x00 => s.cal.ctrlWord
  | 0x04 => s.calStat
  | 0x08 => s.cal.tcalWord
  | 0x0C => s.cal.fail.setWidth 32
  | 0x10 => pack [(4, 3, s.cal.setAddr), (0, 3, s.cal.wordAddr)]
  | 0x14 => s.cal.setData
  | _ =>
    if 0x100 ≤ off && off < 0x210 then chanWord ((elem? s.cal.chans ((off - 0x100) / 0x10)).getD {}) (off % 0x10 / 4)
    else if 0x300 ≤ off && off < 0x340 && off % 0x10 < 8 then chanWord ((elem? s.cal.sense ((off - 0x300) / 0x10)).getD {}) (off % 0x10 / 4)
    else 0

def calRead (off : Nat) (s : State) : State := if off = 0x14 then s.onCal Cal.advance else s

def calWriteReg (off : Nat) (w : Word) (s : State) : State :=
  match off with
  | 0x00 => s.writeCalCtrl w
  | 0x0C => s.onCal fun c => { c with fail := c.fail &&& ~~~(w.setWidth 17) }
  | 0x10 => s.onCal fun c => { c with setAddr := fld w 4 3, wordAddr := fld w 0 3 }
  | 0x14 => s.onCal (Cal.writeSet w)
  | _ => s

/-! ## TOP -/

def topWord (off : Nat) (s : State) : Word :=
  match off with
  | 0x04 => s.top.statWord
  | 0x08 => pack [flag 16 s.top.slotSel, (2, 14, s.top.waddr)]
  | 0x0C => s.mem.word32 s.sdataMem (4 * s.top.waddr)
  | 0x10 => s.top.actId
  | _ => 0

def topRead (off : Nat) (s : State) : State := if off = 0x0C then s.readSdata else s

def topWriteReg (off : Nat) (w : Word) (s : State) : State :=
  match off with
  | 0x00 => s.writeTopCtrl w
  | 0x04 => s.onTop fun t => { t with actRefused := w1c w 6 t.actRefused, swapDone := w1c w 5 t.swapDone, valDone := w1c w 4 t.valDone }
  | 0x08 => s.onTop fun t => { t with slotSel := w.getLsbD 16, waddr := fld w 2 14 }
  | 0x0C => s.writeSdata w
  | _ => s

/-! ## MEM -/

/-- MEM_SCRUB. -/
def scrubWordReg (x : Scrub) : Word :=
  pack [flag 29 x.busy, flag 28 x.done, flag 27 x.aborted, flag 26 x.cerr, (0, 4, x.memsel)]

/-- MEM_REMAPn. -/
def remapWordReg (r : Option Remap) : Word :=
  match r with
  | some x => pack [flag 31 true, (24, 4, x.memsel), (3, 21, x.offset / 8)]
  | none => 0

def memWord (off : Nat) (s : State) : Word :=
  let m := s.mem
  match off with
  | 0x00 => pack [flag 0 m.uwrep]
  | 0x04 => pack [(16, 16, m.ret.toNat), (0, 16, m.on.toNat)]
  | 0x08 => pack [flag 31 m.cerr, (0, 16, m.ready.toNat)]
  | 0x10 => scrubWordReg m.scrub
  | 0x14 => pack [(3, 21, m.scrub.addr / 8)]
  | 0x18 => pack [(3, 21, m.scrub.len / 8)]
  | 0x20 => pack [(16, 16, m.scrub.sum.corr), (0, 16, m.scrub.sum.uncorr)]
  | 0x24 => BitVec.ofNat 32 m.scrub.sum.first
  | 0x28 => BitVec.ofNat 32 m.scrub.sum.last
  | 0x2C => pack [(8, 4, m.scrub.sum.memsel), (0, 8, m.scrub.sum.remapped)]
  | 0x30 => pack [flag 31 m.tt.en, (16, 9, m.tt.mask.toNat), (0, 16, m.tt.interval)]
  | 0x34 => pack [(16, 16, m.tt.passes.toNat), (0, 16, m.tt.regions.toNat)]
  | 0x38 => pack [(28, 4, m.tt.resMem), (3, 21, m.tt.resAddr / 8)]
  | 0x140 => pack [(0, 5, m.remap.length)]
  | _ => if 0x100 ≤ off && off < 0x140 then remapWordReg m.remap[(off - 0x100) / 4]? else 0

/-- A MEM_SCRUB write: MEMSEL and the W1C bits, ABORT, GO. -/
def writeScrub (w : Word) (s : State) : State :=
  let s1 := s.onMem fun m => { m with scrub := { m.scrub with
    memsel := fld w 0 4, done := w1c w 28 m.scrub.done, aborted := w1c w 27 m.scrub.aborted, cerr := w1c w 26 m.scrub.cerr } }
  let s2 := if w.getLsbD 30 then s1.abortScrub else s1
  if w.getLsbD 31 then s2.startScrub else s2

def memWriteReg (off : Nat) (w : Word) (s : State) : State :=
  match off with
  | 0x00 => s.onMem fun m => { m with uwrep := w.getLsbD 0 }
  | 0x04 => s.writeBankPwr w
  | 0x08 => s.onMem fun m => { m with cerr := w1c w 31 m.cerr }
  | 0x10 => s.writeScrub w
  | 0x14 => s.onMem fun m => { m with scrub := { m.scrub with addr := 8 * fld w 3 21 } }
  | 0x18 => s.onMem fun m => { m with scrub := { m.scrub with len := 8 * fld w 3 21 } }
  | 0x30 => s.onMem fun m =>
    { m with tt := { m.tt with en := w.getLsbD 31, mask := BitVec.ofNat 9 (fld w 16 9) &&& presentMems s.sys.variant, interval := fld w 0 16 } }
  | _ => s

/-! ## The plane -/

/-- A read of a management register: its word and its effect; an absent one raises 0x63 (R33). -/
def readMgmt (a : Nat) (s : State) : Word × State :=
  let off := a % 0x10000
  if !s.mgmtServed then (0, s)
  else match a / 0x10000 with
  | 0 => (s.mgtWord off, s.mgtRead off)
  | 1 => (s.thmWord off, s.thmRead off)
  | 2 => (s.fltWord off, s.fltRead off)
  | 3 => (s.otpWord off, s)
  | 4 => if s.calAbsent off then (0, s.raiseAbsent a) else (s.calWord off, s.calRead off)
  | 5 => (s.topWord off, s.topRead off)
  | 0x80 => (s.memWord off, s)
  | _ => (0, s)

/-- A write of a management register. -/
def writeMgmt (a : Nat) (w : Word) (s : State) : State :=
  let off := a % 0x10000
  if !s.mgmtServed then s
  else match a / 0x10000 with
  | 0 => s.mgtWriteReg off w
  | 1 => s.thmWriteReg off w
  | 2 => s.fltWriteReg off w
  | 3 => s.otpWriteReg off w
  | 4 => if s.calAbsent off then s.raiseAbsent a else s.calWriteReg off w
  | 5 => s.topWriteReg off w
  | 0x80 => s.memWriteReg off w
  | _ => s

end State

end Sys2Proof.Machine
end

