-- ==== Sys2Proof/Machine/Bus.lean ====
section
/-!
DEFINITION. The host bridge's address map (R27 to R33): which unit an address names, a word read or written there, the line-store window
(R252), and what an access of several bytes does piece by piece (R30), with the status bits octal SPI shows of it (R342).
-/

namespace Sys2Proof.Machine

/-! ## Targets -/

/-- What an address of the map names (R27). -/
inductive Target where
  | unassigned
  | mgmt
  | sprig (n : Fin 96) (off : Nat)
  | pleach (off : Nat)
  | lpc (c : Fin 4) (off : Nat)
  | tlk (n : Fin 8) (off : Nat)
  | pos (n : Fin 8) (off : Nat)
  | dma (e : Fin 4) (off : Nat)
  | pdp (p : Fin 4) (off : Nat)
  | hpt (p : Fin 4) (off : Nat)
  deriving DecidableEq, Repr

/-- Instance and offset within a block of instances. -/
def instanceAt {n : Nat} (base stride a : Nat) (f : Fin n → Nat → Target) : Target :=
  match fin? n ((a - base) / stride) with
  | some i => f i ((a - base) % stride)
  | none => .unassigned

/-- The unit of a register address. -/
def target (a : Nat) : Target :=
  match a / 0x100000 with
  | 0 => if a < 0x60000 then .mgmt else .unassigned
  | 1 => if a < 0x106000 then instanceAt 0x100000 0x100 a .sprig
         else if 0x108000 ≤ a && a < 0x110000 then .pleach (a - 0x100000) else .unassigned
  | 2 => instanceAt 0x200000 0x10000 a .lpc
  | 3 => instanceAt 0x300000 0x1000 a .tlk
  | 4 => instanceAt 0x400000 0x100 a .pos
  | 5 => instanceAt 0x500000 0x10000 a .dma
  | 6 => instanceAt 0x600000 0x1000 a .pdp
  | 7 => instanceAt 0x700000 0x4000 a .hpt
  | 8 => if a < 0x810000 then .mgmt else .unassigned
  | _ => .unassigned

namespace State

/-- The unit is on the variant (R3). -/
def present (t : Target) (s : State) : Bool :=
  match t with
  | .sprig n _ => s.hasSprig n
  | .lpc c _ => s.hasCore c
  | .tlk n _ => s.hasTlk n
  | .dma e _ => s.hasEngine e.val
  | .pdp p _ => s.hasPort p
  | .hpt p _ => s.hasPort p
  | _ => true

/-- The unit belongs to the control or the data plane. -/
def planeTarget (t : Target) : Bool :=
  match t with
  | .unassigned | .mgmt => false
  | _ => true

/-- A word read of a present unit. -/
def readUnit (t : Target) (a : Nat) (s : State) : Word × State :=
  match t with
  | .unassigned => (0, s)
  | .mgmt => s.readMgmt a
  | .sprig n off => (s.sprigWord n off, s.sprigRead n off)
  | .pleach off => (s.pleachWord off, s.pleachRead off)
  | .lpc c off => s.lpcReadReg c off
  | .tlk n off => (s.tlkWord n off, s.tlkRead n off)
  | .pos n off => (s.posWord n off, s.posRead n off)
  | .dma e off => s.dmaReadReg e off
  | .pdp p off => s.pdpReadReg p off
  | .hpt p off => s.hptReadReg p off

/-- A word write to a present unit. -/
def writeUnit (t : Target) (a : Nat) (w : Word) (s : State) : State :=
  match t with
  | .unassigned => s
  | .mgmt => s.writeMgmt a w
  | .sprig n off => s.sprigWriteReg n off w
  | .pleach off => s.pleachWriteReg off w
  | .lpc c off => s.lpcWriteReg c off w
  | .tlk n off => s.tlkWriteReg n off w
  | .pos n off => s.posWriteReg n off w
  | .dma e off => s.dmaWriteReg e off w
  | .pdp p off => s.pdpWriteReg p off w
  | .hpt p off => s.hptWriteReg p off w

/-- A word read as the host bridge makes it: the rung check (R40) goes before the absent-unit rule (R33). -/
def busRead (a : Nat) (s : State) : Word × State :=
  let t := target a
  if planeTarget t && !s.clocked then (0, s)
  else if s.present t then s.readUnit t a else (0, s.raiseAbsent a)

/-- A word write as the host bridge makes it. -/
def busWrite (a : Nat) (w : Word) (s : State) : State :=
  let t := target a
  if planeTarget t && !s.clocked then s
  else if s.present t then s.writeUnit t a w else s.raiseAbsent a

/-- The SPI status bits of a word access at this moment: RUNG and ABSENT (R342). -/
def busStatus (a : Nat) (s : State) : BitVec 8 :=
  let t := target a
  if planeTarget t && !s.clocked then 0x20
  else if !s.present t || (a / 0x10000 = 4 && s.calAbsent (a % 0x10000)) then 0x02 else 0

/-- A word of the DMA area that holds an uncorrectable byte is poisoned, as one of the line-store window is (DEDUCED from R254 and R263, log
entry 147). -/
def wordPoison (a : Nat) (s : State) : BitVec 8 :=
  match target a with
  | .dma e off =>
    match dmaArea e off with
    | some b => if s.clocked && (s.areaRead b).uncorrectable != [] then 0x01 else 0
    | none => 0
  | _ => 0

end State

/-! ## The line-store window (R252) -/

/-- Bytes of the window: 16 banks (R27). -/
def windowSize : Nat := 0x800000

/-- An access to the window as accesses of at most 8 bytes: offset and length of each. -/
def windowChunks (a n : Nat) : List (Nat × Nat) := (List.range (ceilDiv n 8)).map fun k => (a + 8 * k, min 8 (n - 8 * k))

namespace State

/-- The window share of an offset is on the variant. -/
def windowPresent (a : Nat) (s : State) : Bool := a / bankSize < s.sys.variant.banks

/-- What an access to the window gives: the bytes, SPI status bits (RUNG, ABSENT, POISON), the state after it. Above the window nothing is
assigned (R29). -/
def windowGet (a n : Nat) (s : State) : List Byte × BitVec 8 × State :=
  if windowSize ≤ a then (List.replicate n 0, 0, s)
  else if !s.clocked then (List.replicate n 0, 0x20, s)
  else if s.windowPresent a then
    let r := s.mem.read 0 a n
    (r.bytes, if r.uncorrectable != [] then 0x01 else 0, s.noteRead 0 r true)
  else (List.replicate n 0, 0x02, s.raiseAbsent (0x1000000 + a))

def windowPut (a : Nat) (bytes : List Byte) (s : State) : BitVec 8 × State :=
  if windowSize ≤ a then (0, s)
  else if !s.clocked then (0x20, s)
  else if s.windowPresent a then (0, s.onMem fun m => m.writeBytes 0 a bytes)
  else (0x02, s.raiseAbsent (0x1000000 + a))

end State

/-! ## Accesses -/

/-- An access in progress: the state, the bytes read so far, the status bits. -/
structure Access where
  st : State
  bytes : List Byte := []
  stat : BitVec 8 := 0

namespace Access

/-- A word of register space is read: its whole word is returned (R30). -/
def readWord (x : Access) (p : Piece) : Access :=
  let r := x.st.busRead p.addr
  { st := r.2, bytes := x.bytes ++ leBytes 4 r.1.toNat, stat := x.stat ||| x.st.busStatus p.addr ||| x.st.wordPoison p.addr }

/-- A piece of a write to register space: a narrow one is discarded (R30). -/
def writeWord (a : Nat) (bytes : List Byte) (x : Access) (p : Piece) : Access :=
  if p.whole then
    { x with st := x.st.busWrite p.addr (wordOf a bytes p), stat := x.stat ||| x.st.busStatus p.addr }
  else { x with stat := x.stat ||| 0x08 }

def readChunk (x : Access) (c : Nat × Nat) : Access :=
  let r := x.st.windowGet c.1 c.2
  { st := r.2.2, bytes := x.bytes ++ r.1, stat := x.stat ||| r.2.1 }

/-- A chunk of a write of `bytes` from window offset `a`. -/
def writeChunk (a : Nat) (bytes : List Byte) (x : Access) (c : Nat × Nat) : Access :=
  let r := x.st.windowPut c.1 ((bytes.drop (c.1 - a)).take c.2)
  { x with st := r.2, stat := x.stat ||| r.1 }

end Access

namespace State

/-- A read of `n` bytes from address `a` of the 32 MiB: register space by words, the window by chunks. -/
def accessRead (a n : Nat) (s : State) : Access :=
  if a < 0x1000000 then (pieces a n).foldl Access.readWord { st := s }
  else (windowChunks (a - 0x1000000) n).foldl Access.readChunk { st := s }

/-- A write of bytes from address `a`; one that runs past the register space goes on in the window. -/
def accessWrite (a : Nat) (bytes : List Byte) (s : State) : Access :=
  let n := min bytes.length (0x1000000 - a)
  let x := (pieces a n).foldl (Access.writeWord a (bytes.take n)) { st := s }
  let w := max a 0x1000000 - 0x1000000
  (windowChunks w (bytes.length - n)).foldl (Access.writeChunk w (bytes.drop n)) x

end State

end Sys2Proof.Machine
end

