-- ==== Sys2Proof/Machine/HostAccess.lean ====
section
/-!
DEFINITION. The commands of the three host links (R335 to R344): PCIe requests with those held at L3 (R40), octal SPI, management I2C; and
the exit step of the ladder (R282), whose last serves the transfer the I2C target holds.
-/

namespace Sys2Proof.Machine

namespace State

/-- The host bridge runs: L0 to L2 (R40). -/
def bridgeRuns (s : State) : Bool := s.running && s.ladder.rung ≤ 2

/-! ## PCIe -/

/-- The link carries a request. -/
def pcieCarries (s : State) : Bool := s.running && s.hasPcie && (s.host.link == .l0 || s.host.link == .l1)

/-- A PCIe request: it takes the link out of L1; it is served where the host bridge runs and no earlier one is held, else it is held,
and at L3 it wakes the part (R36, R37, R40). -/
def pcieRequest (h : Held) (serve : State → State) (s : State) : State :=
  if s.pcieCarries then
    if s.bridgeRuns && s.host.held = [] then serve (s.onHost fun k => { k with link := .l0 })
    else (if s.bridgeRuns then s else s.wake .pcie).onHost fun k => { k with link := .l0, held := k.held ++ [h] }
  else s

end State

/-! ## PCIe configuration space (R336) -/

/-- Device ID of a variant with PCIe. -/
def Variant.deviceId (v : Variant) : Nat := if v = .p224 then 0x2240 else 0x4480

/-- The bits R336 gives in a word, the others as the PCI Express specification requires. -/
def given (known value : Word) (r : ConfigReg) : Word := (value &&& known) ||| (Config.pcieItem r &&& ~~~known)

namespace State

/-- A dword of the Type 0 header. -/
def headerWord (d : Fin 16) (s : State) : Word :=
  let h := s.host
  match d.val with
  | 0 => pack [(16, 16, s.sys.variant.deviceId), (0, 16, 0x1F3C)]
  | 1 => given 0x0000FFFF (h.command.setWidth 32) (.header d)
  | 2 => 0x08800002
  | 3 => given 0x007F0000 0 (.header d)
  | 4 => h.bar0
  | 5 | 6 | 7 | 8 | 9 | 12 => 0
  | 11 => 0x00001F3C
  | 15 => given 0x0000FF00 0 (.header d)
  | _ => Config.pcieItem (.header d)

/-- What a configuration read returns: MSI-X with 32 vectors (R338), the power state D0 or D3hot. -/
def configWord (r : ConfigReg) (s : State) : Word :=
  match r with
  | .header d => s.headerWord d
  | .pmControl => given 0x3 (if s.host.d3hot then 3 else 0) r
  | .msixControl => given 0xC7FF00FF (pack [flag 31 s.host.msixEn, flag 30 s.host.msixMask, (16, 11, 31), (0, 8, 0x11)]) r
  | .other _ => Config.pcieItem r

/-- A configuration write: the command bits an endpoint without I/O space has, BAR0, the power state, MSI-X enable and function mask. -/
def configPut (r : ConfigReg) (w : Word) (s : State) : State :=
  match r with
  | .header d =>
    s.onHost fun h => if d.val = 1 then { h with command := w.setWidth 16 &&& 0x0546 } else if d.val = 4 then { h with bar0 := w &&& 0xFE000000 } else h
  | .pmControl => s.onHost fun h => { h with d3hot := if fld w 0 2 = 3 then true else if fld w 0 2 = 0 then false else h.d3hot }
  | .msixControl => s.onHost fun h => ({ h with msixEn := w.getLsbD 31, msixMask := w.getLsbD 30 }).settleMsix
  | .other _ => s

/-- A configuration request: a read returns the word. -/
def configAccess (r : ConfigReg) (write : Option Word) (s : State) : State :=
  match write with
  | some w => s.configPut r w
  | none => s.ret (s.configWord r)

end State

/-- PCIE_CONFIGURATION_REQUEST (R336). -/
def execPcieConfigurationRequest (reg : ConfigReg) (write : Option Word) (s : State) : Res :=
  .next (s.pcieRequest (.config reg write) (State.configAccess reg write))

/-! ## Window accesses -/

namespace State

/-- A window access: a read delivers its bytes, over PCIe poisoned where one is uncorrectable (R254); over octal SPI the status bits add to
SPI_STAT. -/
def windowAccess (link : HostLink) (a : Nat) (acc : WinAccess) (s : State) : State :=
  let add (b : BitVec 8) (h : HostIf) : HostIf := if link = .spi then { h with spiStat := h.spiStat ||| b } else h
  match acc with
  | .read n =>
    let r := s.windowGet a n
    r.2.2.onHost fun h => add r.2.1 { h with winData := r.1, poison := link = .pcie && r.2.1.getLsbD 0 }
  | .write bytes =>
    let r := s.windowPut a bytes
    r.2.onHost (add r.1)

end State

/-- HOST_WINDOW_ACCESS (R252, R40). The management I2C does not reach the window (R343). -/
def execHostWindowAccess (link : HostLink) (offset : BitVec 24) (acc : WinAccess) (s : State) : Res :=
  if (Instr.hostWindowAccess link offset acc).wellFormed then
    .next (match link with
      | .pcie => s.pcieRequest (.window offset acc) (State.windowAccess .pcie offset.toNat acc)
      | .spi => if s.bridgeRuns then s.windowAccess .spi offset.toNat acc else s
      | .i2c => s)
  else refuseIllFormed

/-! ## Octal SPI (R340 to R342) -/

/-- A transaction of `n` bytes from `a` that sets FRAME: misaligned in register space, or across its end. -/
def spiFrameError (a n : Nat) : Bool := a < 0x1000000 && (a % 4 != 0 || n % 4 != 0 || decide (0x1000000 < a + n))

namespace State

/-- A transaction ends with its status byte. -/
def spiEnd (out : List Byte) (stat : BitVec 8) (s : State) : State :=
  s.onHost fun h => { h with spiStatus := stat, spiStat := h.spiStat ||| stat, spiOut := out }

/-- Nobody drives SIO: what the host reads is the board's (R342). -/
def spiSilent (n : Nat) (s : State) : State :=
  (s.onHost fun h => { h with spiOut := (List.range n).map (Config.undrivenSpi s.free) }).bumpFree

/-- A WRITE transaction. -/
def spiPut (a : Nat) (bytes : List Byte) (s : State) : State :=
  if spiFrameError a bytes.length then s.spiEnd [] 0x10
  else
    let x := s.accessWrite a bytes
    x.st.spiEnd [] x.stat

/-- A READ transaction: 0xA5, the data, the status byte; the wait bytes before them are time. -/
def spiGet (a n : Nat) (s : State) : State :=
  if spiFrameError a n then (s.spiEnd (0xA5 :: (List.range n).map (Config.undrivenSpi s.free) ++ [0x10]) 0x10).bumpFree
  else
    let x := s.accessRead a n
    x.st.spiEnd (0xA5 :: x.bytes ++ [x.stat]) x.stat

end State

/-- SPI_WRITE (R340). -/
def execSpiWrite (addr : BitVec 32) (bytes : List Byte) (s : State) : Res :=
  if (Instr.spiWrite addr bytes).wellFormed then .next (if s.bridgeRuns then s.spiPut addr.toNat bytes else s)
  else refuseIllFormed

/-- SPI_READ (R340). -/
def execSpiRead (addr : BitVec 32) (len : Nat) (s : State) : Res :=
  if (Instr.spiRead addr len).wellFormed then .next (if s.bridgeRuns then s.spiGet addr.toNat len else s.spiSilent (len + 2))
  else refuseIllFormed

/-- SPI_READ_TIMEOUT (R341): nothing is read, and TIMEOUT is set. -/
def execSpiReadTimeout (s : State) : Res := .next (if s.bridgeRuns then s.spiEnd [0xE1, 0x04] 0x04 else s.spiSilent 2)

/-- SPI_STATUS (R342). -/
def execSpiStatus (s : State) : Res :=
  .next (if s.bridgeRuns then s.onHost fun h => { h with spiOut := [h.spiStat], spiStat := 0 } else s.spiSilent 1)

/-! ## Management I2C (R343, R344) -/

/-- An offset the management I2C reaches: the blocks of the management plane. -/
def i2cReaches (a : Nat) : Bool := a < 0x60000 || (decide (0x800000 ≤ a) && decide (a < 0x810000))

/-- An offset served from the AON domain. -/
def i2cAon (a : Nat) : Bool := decide (0x20 ≤ a) && decide (a < 0x34)

/-- The whole words of a byte list, each little-endian. -/
def wholeWords : List Byte → List Word
  | a :: b :: c :: d :: rest => BitVec.ofNat 32 (leNat [a, b, c, d]) :: wholeWords rest
  | _ => []

namespace State

/-- Words written from an offset, up to the first that the target does not acknowledge. -/
def i2cPutWords : Nat → List Word → State → State
  | _, [], s => s
  | a, w :: rest, s => if i2cReaches a then i2cPutWords (a + 4) rest (s.writeMgmt a w) else s.onHost fun h => { h with i2cAck := false }

/-- A write served at once. -/
def i2cPut (a : Nat) (bytes : List Byte) (s : State) : State :=
  let s1 := s.onHost fun h => { h with i2cHold := .none, i2cOut := [], i2cAck := i2cReaches a && a % 4 = 0 }
  if a % 4 = 0 then s1.i2cPutWords a (wholeWords bytes) else s1

/-- Successive words from an offset; those outside the management plane read 0. -/
def i2cGetWords : Nat → Nat → State → List Byte × State
  | _, 0, s => ([], s)
  | a, n + 1, s =>
    let r := if i2cReaches a then s.readMgmt a else (0, s)
    let rest := i2cGetWords (a + 4) n r.2
    (leBytes 4 r.1.toNat ++ rest.1, rest.2)

/-- A read of `n` bytes served at once; it joins what the transfer has already read. -/
def i2cGet (a n : Nat) (before : List Byte) (s : State) : State :=
  let r := s.i2cGetWords (a / 4 * 4) (ceilDiv n 4)
  r.2.onHost fun h => { h with i2cHold := .none, i2cAck := true, i2cOut := before ++ r.1.take n }

/-- AON words written from an offset, and what is left of the access after them. -/
def i2cPutAon : Nat → List Byte → State → Nat × List Byte × State
  | a, b0 :: b1 :: b2 :: b3 :: rest, s =>
    if i2cAon a then i2cPutAon (a + 4) rest (s.writeAon a (BitVec.ofNat 32 (leNat [b0, b1, b2, b3]))) else (a, b0 :: b1 :: b2 :: b3 :: rest, s)
  | a, rest, s => if i2cAon a then (a, [], s) else (a, rest, s)

/-- MGT_WAKEEN.I2C. -/
def i2cWakes (s : State) : Bool := s.ladder.wakeEn.getLsbD 1

/-- A write at L4 to L6 (R344): the AON words are applied; the rest wakes the part and is held, or is not acknowledged. -/
def i2cPutDeep (a : Nat) (bytes : List Byte) (s : State) : State :=
  if i2cAon a && a % 4 != 0 then s.onHost fun h => { h with i2cAck := false, i2cOut := [] }
  else
    let r := s.i2cPutAon a bytes
    let s1 := r.2.2.onHost fun h => { h with i2cAck := true, i2cOut := [] }
    if r.2.1 = [] then s1
    else if s1.i2cWakes then (s1.wake .i2c).onHost fun h => { h with i2cHold := .write (BitVec.ofNat 24 r.1) r.2.1 }
    else s1.onHost fun h => { h with i2cAck := false }

/-- Bytes of AON words from an offset, at most `n`. -/
def aonBytes (a n : Nat) (s : State) : List Byte :=
  ((List.range (ceilDiv n 4)).flatMap fun k => if i2cAon (a + 4 * k) then leBytes 4 (s.mgtWord (a + 4 * k)).toNat else []).take n

/-- A read at L4 to L6 (R344). -/
def i2cGetDeep (a n : Nat) (s : State) : State :=
  let w := a / 4 * 4
  let got := if i2cAon w then s.aonBytes w n else []
  let s1 := s.onHost fun h => { h with i2cAck := true, i2cOut := got }
  if got.length = n then s1
  else if s1.i2cWakes then (s1.wake .i2c).onHost fun h => { h with i2cHold := .read (BitVec.ofNat 24 (w + got.length)) (n - got.length) }
  else s1.onHost fun h => { h with i2cOut := got ++ List.replicate (n - got.length) 0 }

/-- The target serves the access at once: L0 to L3. -/
def i2cDirect (s : State) : Bool := s.sys.phase != .inReset && s.ladder.rung ≤ 3

/-- The target acknowledges its address from the AON domain: L4 to L6. -/
def i2cDeep (s : State) : Bool := s.running && decide (4 ≤ s.ladder.rung) && s.ladder.rung ≤ 6

/-- No answer on the bus: held in reset, or unpowered at L7. -/
def i2cDead (s : State) : State := s.onHost fun h => { h with i2cAck := false, i2cOut := [] }

/-- A management I2C write; while SCL is held low no other access starts. -/
def i2cWriteAt (a : Nat) (bytes : List Byte) (s : State) : State :=
  if s.host.i2cHold != .none then s
  else if s.i2cDirect then s.i2cPut a bytes
  else if s.i2cDeep then s.i2cPutDeep a bytes
  else s.i2cDead

/-- A management I2C read. -/
def i2cReadAt (a n : Nat) (s : State) : State :=
  if s.host.i2cHold != .none then s
  else if s.i2cDirect then s.i2cGet a n []
  else if s.i2cDeep then s.i2cGetDeep a n
  else s.i2cDead

/-- The transfer the target holds is served at L0. -/
def serveI2c (s : State) : State :=
  match s.host.i2cHold with
  | .none => s
  | .write off bytes => s.i2cPut off.toNat bytes
  | .read off n => s.i2cGet off.toNat n s.host.i2cOut

end State

/-- I2C_WRITE (R343, R344). -/
def execI2cWrite (offset : BitVec 24) (bytes : List Byte) (s : State) : Res := .next (s.i2cWriteAt offset.toNat bytes)

/-- I2C_READ (R343, R344). -/
def execI2cRead (offset : BitVec 24) (len : Nat) (s : State) : Res := .next (s.i2cReadAt offset.toNat len)

/-- EXIT_STEP (R282): the present step completes; at L0, or at L3 where a lost clock ends the exit (R285), the target serves the transfer
it holds (R344). -/
def execExitStep (s : State) : Res :=
  .next (match s.ladder.phase with
    | .exit k =>
      if s.running then
        let s1 := s.exitStep k
        if s1.ladder.phase = .idle || s1.ladder.phase = .stuck then s1.serveI2c else s1
      else s
    | _ => s)

/-- CLOCK_LOSS (R285): where it ends an exit at L3, the target serves the transfer it holds. -/
def execClockLoss (clk : WatchedClock) (s : State) : Res :=
  .next (if s.sys.phase != .inReset && s.watched clk then
    let s1 := s.clockLoss clk
    if s1.ladder.phase = .stuck then s1.serveI2c else s1
  else s)

/-! ## Register accesses -/

/-- A PCIe read of any length: whole words of register space (R30), window bytes, poisoned where one is uncorrectable (R254). -/
def State.pcieRead (a n : Nat) (s : State) : State :=
  let x := s.accessRead a n
  x.st.onHost fun h => { h with winData := x.bytes, poison := x.stat.getLsbD 0 }

/-- REGISTER_WRITE (R30, R36): a write to the address map over a host link, or a read beside it, which R37 orders behind the writes
and R30 cuts the same way. -/
def execRegisterWrite (link : HostLink) (addr : BitVec 32) (acc : BusAccess) (s : State) : Res :=
  if (Instr.registerWrite link addr acc).wellFormed then
    .next (match link, acc with
      | .pcie, .write bytes => s.pcieRequest (.write addr bytes) fun t => (t.accessWrite addr.toNat bytes).st
      | .pcie, .read n => s.pcieRequest (.read addr n) (State.pcieRead addr.toNat n)
      | .spi, .write bytes => if s.bridgeRuns then s.spiPut addr.toNat bytes else s
      | .spi, .read n => if s.bridgeRuns then s.spiGet addr.toNat n else s.spiSilent (n + 2)
      | .i2c, .write bytes => if addr.toNat < 0x1000000 then s.i2cWriteAt addr.toNat bytes else s
      | .i2c, .read n => if addr.toNat < 0x1000000 then s.i2cReadAt addr.toNat n else s)
  else refuseIllFormed

/-- A held request is served. -/
def State.serveHeld (h : Held) (s : State) : State :=
  match h with
  | .write addr bytes => (s.accessWrite addr.toNat bytes).st
  | .read addr n => s.pcieRead addr.toNat n
  | .window offset acc => s.windowAccess .pcie offset.toNat acc
  | .config reg w => s.configAccess reg w

/-- HELD_REQUEST_SERVE (R40): at L0 the oldest held request is served. -/
def execHeldRequestServe (s : State) : Res :=
  .next (match s.host.held with
    | h :: rest =>
      if s.running && s.ladder.rung = 0 then (s.onHost fun k => { k with held := rest }).serveHeld h else s
    | [] => s)

end Sys2Proof.Machine
end

