-- ==== Sys2Proof/Machine/SafeState.lean ====
section
/-!
DEFINITION. Entry into the safe state (R317).
-/

namespace Sys2Proof.Machine

/-- No exchange of the port holds an axis. -/
def Port.leaveAxis (q : Port) : Port := { q with seam := { q.seam with axisHolds := false, axisResume := false, axisRuns := false } }

namespace State

/-- The data plane on the safe-state lines: strobes and latches go inactive, then every port disarms with DISCAUSE 3. -/
def safePorts (s : State) : State := portNumbers.foldl (fun t p => (t.stopStrobes p).endArming p 3) s

/-- The safe-state lines in every plane: ports disarmed, slots parked, every seam ended on its axis too (R163), sprig outputs at their safe
levels, every running Tohevik port sending SAFE, injections ended. -/
def takeSafe (s : State) : State :=
  let s1 := (s.safePorts.parkWhere fun _ => true).onPorts fun v => v.map Port.leaveAxis
  ((s1.onFab fun b => { b with sprigs := b.sprigs.map Sprig.toSafe }).onTlks fun v => v.map Tlk.toSafe).onLinks
    Links.stopInjection

end State

/-- SAFE_STATE_ENTRY (R317), while the safe-state lines assert. -/
def execSafeStateEntry (s : State) : Res := .next (if s.flt.safe then s.takeSafe else s)

end Sys2Proof.Machine
end

