-- ==== Sys2Proof/Machine/Dispatch.lean ====
section
/-!
DEFINITION. One arm per command: each calls its meaning.
-/

namespace Sys2Proof.Machine

def exec (i : Instr) (s : State) : Host.Outcome State Fault Refusal :=
  match i with
  | .linkMessageReceive dir msg => Sys2Proof.Machine.execLinkMessageReceive dir msg s
  | .replayRequest dir seq => Sys2Proof.Machine.execReplayRequest dir seq s
  | .heartbeatMessage dir => Sys2Proof.Machine.execHeartbeatMessage dir s
  | .linkFailed dir => Sys2Proof.Machine.execLinkFailed dir s
  | .seamStop port tag fpos => Sys2Proof.Machine.execSeamStop port tag fpos s
  | .seamHeld port tag => Sys2Proof.Machine.execSeamHeld port tag s
  | .seamResume port tag cancel => Sys2Proof.Machine.execSeamResume port tag cancel s
  | .seamRun port tag => Sys2Proof.Machine.execSeamRun port tag s
  | .seamBackupStart axis => Sys2Proof.Machine.execSeamBackupStart axis s
  | .seamHandback axis => Sys2Proof.Machine.execSeamHandback axis s
  | .faultReport plane source kind index time => Sys2Proof.Machine.execFaultReport plane source kind index time s
  | .safeStateEntry => Sys2Proof.Machine.execSafeStateEntry s
  | .quiescenceRequest plane => Sys2Proof.Machine.execQuiescenceRequest plane s
  | .quiescenceConfirm plane => Sys2Proof.Machine.execQuiescenceConfirm plane s
  | .quiescenceRefuse plane => Sys2Proof.Machine.execQuiescenceRefuse plane s
  | .memCommandMessage memsel fails => Sys2Proof.Machine.execMemCommandMessage memsel fails s
  | .memResultMessage memsel res => Sys2Proof.Machine.execMemResultMessage memsel res s
  | .registerWrite link addr acc => Sys2Proof.Machine.execRegisterWrite link addr acc s
  | .heldRequestServe => Sys2Proof.Machine.execHeldRequestServe s
  | .topSdataWrite data => Sys2Proof.Machine.execTopSdataWrite data s
  | .topSdataRead => Sys2Proof.Machine.execTopSdataRead s
  | .validate => Sys2Proof.Machine.execValidate s
  | .validationEnd => Sys2Proof.Machine.execValidationEnd s
  | .activate => Sys2Proof.Machine.execActivate s
  | .activationSwap => Sys2Proof.Machine.execActivationSwap s
  | .clear => Sys2Proof.Machine.execClear s
  | .clearDone => Sys2Proof.Machine.execClearDone s
  | .sprigCommit n => Sys2Proof.Machine.execSprigCommit n s
  | .sprigCommitIdle n => Sys2Proof.Machine.execSprigCommitIdle n s
  | .sprigDiscard n => Sys2Proof.Machine.execSprigDiscard n s
  | .sprigBoundary n => Sys2Proof.Machine.execSprigBoundary n s
  | .groupCommit => Sys2Proof.Machine.execGroupCommit s
  | .inputEdgeAccept n drives stamp => Sys2Proof.Machine.execInputEdgeAccept n drives stamp s
  | .pwmPeriodStart n => Sys2Proof.Machine.execPwmPeriodStart n s
  | .stepEmit n => Sys2Proof.Machine.execStepEmit n s
  | .peakHoldSample n code => Sys2Proof.Machine.execPeakHoldSample n code s
  | .tachGateEnd n => Sys2Proof.Machine.execTachGateEnd n s
  | .caploRead n term => Sys2Proof.Machine.execCaploRead n term s
  | .sosTsloRead n => Sys2Proof.Machine.execSosTsloRead n s
  | .fabTimeloRead => Sys2Proof.Machine.execFabTimeloRead s
  | .illegalRead n => Sys2Proof.Machine.execIllegalRead n s
  | .ptoRead n => Sys2Proof.Machine.execPtoRead n s
  | .posFwdWrite axis fwd => Sys2Proof.Machine.execPosFwdWrite axis fwd s
  | .posloRead axis => Sys2Proof.Machine.execPosloRead axis s
  | .excDepthRead axis => Sys2Proof.Machine.execExcDepthRead axis s
  | .axisStall axis => Sys2Proof.Machine.execAxisStall axis s
  | .excursionLong axis => Sys2Proof.Machine.execExcursionLong axis s
  | .lineCommit port vhs => Sys2Proof.Machine.execLineCommit port vhs s
  | .axisUnsettledAtLine port => Sys2Proof.Machine.execAxisUnsettledAtLine port s
  | .sosMissing port => Sys2Proof.Machine.execSosMissing port s
  | .lineFire port => Sys2Proof.Machine.execLineFire port s
  | .lineAssemble port => Sys2Proof.Machine.execLineAssemble port s
  | .replayStart port => Sys2Proof.Machine.execReplayStart port s
  | .replayComplete port => Sys2Proof.Machine.execReplayComplete port s
  | .pdpCommit port => Sys2Proof.Machine.execPdpCommit port s
  | .pdpCommitSwap port => Sys2Proof.Machine.execPdpCommitSwap port s
  | .pdpDiscard port => Sys2Proof.Machine.execPdpDiscard port s
  | .pdpLowmarkWrite port low => Sys2Proof.Machine.execPdpLowmarkWrite port low s
  | .unplRead port => Sys2Proof.Machine.execUnplRead port s
  | .healthTestGo port => Sys2Proof.Machine.execHealthTestGo port s
  | .healthTestCycle port fireAt droop => Sys2Proof.Machine.execHealthTestCycle port fireAt droop s
  | .healthTestAbort port => Sys2Proof.Machine.execHealthTestAbort port s
  | .energyCommit port => Sys2Proof.Machine.execEnergyCommit port s
  | .energyDiscard port => Sys2Proof.Machine.execEnergyDiscard port s
  | .clampsRead port => Sys2Proof.Machine.execClampsRead port s
  | .watchdogCut port strobe active => Sys2Proof.Machine.execWatchdogCut port strobe s active
  | .headTempPublish port ts vhs => Sys2Proof.Machine.execHeadTempPublish port ts s vhs
  | .capChange port => Sys2Proof.Machine.execCapChange port s
  | .seamPause port => Sys2Proof.Machine.execSeamPause port s
  | .seamRelease port => Sys2Proof.Machine.execSeamRelease port s
  | .seamcntRead port => Sys2Proof.Machine.execSeamcntRead port s
  | .supplyWarning => Sys2Proof.Machine.execSupplyWarning s
  | .supplyWarningClear => Sys2Proof.Machine.execSupplyWarningClear s
  | .sidebandPoll port ack headId hformat nozzles => Sys2Proof.Machine.execSidebandPoll port ack headId hformat nozzles s
  | .respReadyPoll port ready headId hformat nozzles => Sys2Proof.Machine.execRespReadyPoll port ready s headId hformat nozzles
  | .acceptanceEnd port response slotA slotB => Sys2Proof.Machine.execAcceptanceEnd port response slotA slotB s
  | .hctrlAuth port => Sys2Proof.Machine.execHctrlAuth port s
  | .hctrlUsage port => Sys2Proof.Machine.execHctrlUsage port s
  | .usageCommitEnd port written readBack => Sys2Proof.Machine.execUsageCommitEnd port written s readBack
  | .sbTransfer port => Sys2Proof.Machine.execSbTransfer port s
  | .sbTransferDone port ack data => Sys2Proof.Machine.execSbTransferDone port ack data s
  | .dropsloRead port => Sys2Proof.Machine.execDropsloRead port s
  | .arm port dryrun => Sys2Proof.Machine.execArm port dryrun s
  | .disarm port => Sys2Proof.Machine.execDisarm port s
  | .disarmComplete port => Sys2Proof.Machine.execDisarmComplete port s
  | .sampleTick core slot => Sys2Proof.Machine.execSampleTick core slot s
  | .sampleJobDone core => Sys2Proof.Machine.execSampleJobDone core s
  | .outputTick core slot => Sys2Proof.Machine.execOutputTick core slot s
  | .slotRun core slot => Sys2Proof.Machine.execSlotRun core slot s
  | .slotHold core slot => Sys2Proof.Machine.execSlotHold core slot s
  | .slotPark core slot => Sys2Proof.Machine.execSlotPark core slot s
  | .coefCommit core slot => Sys2Proof.Machine.execCoefCommit core slot s
  | .coefDiscard core slot => Sys2Proof.Machine.execCoefDiscard core slot s
  | .genStop core slot => Sys2Proof.Machine.execGenStop core slot s
  | .genMove core slot => Sys2Proof.Machine.execGenMove core slot s
  | .genJog core slot => Sys2Proof.Machine.execGenJog core slot s
  | .testSignalGo core slot => Sys2Proof.Machine.execTestSignalGo core slot s
  | .testSignalStop core slot => Sys2Proof.Machine.execTestSignalStop core slot s
  | .testSignalEnd core slot => Sys2Proof.Machine.execTestSignalEnd core slot s
  | .captureArm core => Sys2Proof.Machine.execCaptureArm core s
  | .captureStop core => Sys2Proof.Machine.execCaptureStop core s
  | .capdataRead core => Sys2Proof.Machine.execCapdataRead core s
  | .ltimeloRead core => Sys2Proof.Machine.execLtimeloRead core s
  | .sampleloRead core slot => Sys2Proof.Machine.execSampleloRead core slot s
  | .misscntRead core slot => Sys2Proof.Machine.execMisscntRead core slot s
  | .migrationGo core slot => Sys2Proof.Machine.execMigrationGo core slot s
  | .migrationTransfer core slot => Sys2Proof.Machine.execMigrationTransfer core slot s
  | .discardsRead core slot => Sys2Proof.Machine.execDiscardsRead core slot s
  | .tlinkCycleStart tl samples => Sys2Proof.Machine.execTlinkCycleStart tl s samples
  | .feedback tl pos flips => Sys2Proof.Machine.execFeedback tl pos flips s
  | .nodeLost tl pos => Sys2Proof.Machine.execNodeLost tl pos s
  | .train tl => Sys2Proof.Machine.execTrain tl s
  | .ident tl pos caps solenoids inputs hwrev uid flips => Sys2Proof.Machine.execIdent tl pos caps solenoids inputs hwrev uid s flips
  | .configAck tl pos echo status flips => Sys2Proof.Machine.execConfigAck tl pos echo status s flips
  | .trainingTimeout tl => Sys2Proof.Machine.execTrainingTimeout tl s
  | .command tl node flips => Sys2Proof.Machine.execCommand tl node flips s
  | .unaddr tl flips => Sys2Proof.Machine.execUnaddr tl s flips
  | .address tl flips => Sys2Proof.Machine.execAddress tl flips s
  | .config tl node flips => Sys2Proof.Machine.execConfig tl node flips s
  | .restore tl node flips => Sys2Proof.Machine.execRestore tl node flips s
  | .suspend tl node flips => Sys2Proof.Machine.execSuspend tl node flips s
  | .safeFrame tl node flips => Sys2Proof.Machine.execSafeFrame tl node flips s
  | .nodeLossTimeout tl node => Sys2Proof.Machine.execNodeLossTimeout tl node s
  | .nodeCtrlRestore tl pos => Sys2Proof.Machine.execNodeCtrlRestore tl pos s
  | .injectionGo tl => Sys2Proof.Machine.execInjectionGo tl s
  | .injectionStop tl => Sys2Proof.Machine.execInjectionStop tl s
  | .linkInjectionGo => Sys2Proof.Machine.execLinkInjectionGo s
  | .linkInjectionStop => Sys2Proof.Machine.execLinkInjectionStop s
  | .injcntRead tl => Sys2Proof.Machine.execInjcntRead tl s
  | .plncrcRead tl pos => Sys2Proof.Machine.execPlncrcRead tl pos s
  | .mgtTestPermitWrite permit => Sys2Proof.Machine.execMgtTestPermitWrite permit s
  | .hostWindowAccess link offset acc => Sys2Proof.Machine.execHostWindowAccess link offset acc s
  | .memBankpwrWrite value => Sys2Proof.Machine.execMemBankpwrWrite value s
  | .bankReady bank => Sys2Proof.Machine.execBankReady bank s
  | .scrubGo => Sys2Proof.Machine.execScrubGo s
  | .scrubAbort => Sys2Proof.Machine.execScrubAbort s
  | .scrubDone => Sys2Proof.Machine.execScrubDone s
  | .ttRegion fails => Sys2Proof.Machine.execTtRegion fails s
  | .dmaStart ch => Sys2Proof.Machine.execDmaStart ch s
  | .dmaStop ch => Sys2Proof.Machine.execDmaStop ch s
  | .dmaDescriptor ch => Sys2Proof.Machine.execDmaDescriptor ch s
  | .dmaGrant eng => Sys2Proof.Machine.execDmaGrant eng s
  | .dmaBurst eng => Sys2Proof.Machine.execDmaBurst eng s
  | .dmaBurstComplete ch => Sys2Proof.Machine.execDmaBurstComplete ch s
  | .completionRecordPost ch => Sys2Proof.Machine.execCompletionRecordPost ch s
  | .dmaDiscRead ch => Sys2Proof.Machine.execDmaDiscRead ch s
  | .ladderGo target => Sys2Proof.Machine.execLadderGo target s
  | .rungEntry => Sys2Proof.Machine.execRungEntry s
  | .linkWaitTimeout => Sys2Proof.Machine.execLinkWaitTimeout s
  | .wakeEvent source => Sys2Proof.Machine.execWakeEvent source s
  | .aonTimerExpiry => Sys2Proof.Machine.execAonTimerExpiry s
  | .exitStep => Sys2Proof.Machine.execExitStep s
  | .clockLoss clk => Sys2Proof.Machine.execClockLoss clk s
  | .vcoreFault => Sys2Proof.Machine.execVcoreFault s
  | .dipsRead => Sys2Proof.Machine.execDipsRead s
  | .sensorEvaluation counts => Sys2Proof.Machine.execSensorEvaluation counts s
  | .sensorCheck patternOk countLow countHigh => Sys2Proof.Machine.execSensorCheck patternOk countLow countHigh s
  | .modelUpdate milliwatts activity => Sys2Proof.Machine.execModelUpdate milliwatts activity s
  | .calRound => Sys2Proof.Machine.execCalRound s
  | .calRoundStart => Sys2Proof.Machine.execCalRoundStart s
  | .calChannelDone rzero rref => Sys2Proof.Machine.execCalChannelDone rzero rref s
  | .calStore => Sys2Proof.Machine.execCalStore s
  | .calSetdataAccess write => Sys2Proof.Machine.execCalSetdataAccess write s
  | .implRead => Sys2Proof.Machine.execImplRead s
  | .recordRelease => Sys2Proof.Machine.execRecordRelease s
  | .fltAck id => Sys2Proof.Machine.execFltAck id s
  | .fltSafeEnd => Sys2Proof.Machine.execFltSafeEnd s
  | .fltReactWrite source value => Sys2Proof.Machine.execFltReactWrite source value s
  | .fltHeadRead => Sys2Proof.Machine.execFltHeadRead s
  | .lostRead => Sys2Proof.Machine.execLostRead s
  | .heartbeatTimeout block => Sys2Proof.Machine.execHeartbeatTimeout block s
  | .otpProgGo => Sys2Proof.Machine.execOtpProgGo s
  | .otpPulseVerify tight loose => Sys2Proof.Machine.execOtpPulseVerify tight loose s
  | .otpAbort cause => Sys2Proof.Machine.execOtpAbort cause s
  | .chipReset causes => Sys2Proof.Machine.execChipReset causes s
  | .mgtCmdReset value => Sys2Proof.Machine.execMgtCmdReset value s
  | .boot xtalOscillates => Sys2Proof.Machine.execBoot xtalOscillates s
  | .pcieHotReset => Sys2Proof.Machine.execPcieHotReset s
  | .pcieLinkDown => Sys2Proof.Machine.execPcieLinkDown s
  | .spiWrite addr bytes => Sys2Proof.Machine.execSpiWrite addr bytes s
  | .spiRead addr len => Sys2Proof.Machine.execSpiRead addr len s
  | .spiReadTimeout => Sys2Proof.Machine.execSpiReadTimeout s
  | .spiStatus => Sys2Proof.Machine.execSpiStatus s
  | .i2cWrite offset bytes => Sys2Proof.Machine.execI2cWrite offset bytes s
  | .i2cRead offset len => Sys2Proof.Machine.execI2cRead offset len s
  | .bypass => Sys2Proof.Machine.execBypass s
  | .idcode => Sys2Proof.Machine.execIdcode s
  | .samplePreload bits => Sys2Proof.Machine.execSamplePreload bits s
  | .extest => Sys2Proof.Machine.execExtest s
  | .jtagTestExit => Sys2Proof.Machine.execJtagTestExit s
  | .trstNLow => Sys2Proof.Machine.execTrstNLow s
  | .pcieReferencePresent => Sys2Proof.Machine.execPcieReferencePresent s
  | .crystal32kStart => Sys2Proof.Machine.execCrystal32kStart s
  | .pcieConfigurationRequest reg write => Sys2Proof.Machine.execPcieConfigurationRequest reg write s
  | .pcieLinkUp => Sys2Proof.Machine.execPcieLinkUp s
  | .pcieLinkPowerState state => Sys2Proof.Machine.execPcieLinkPowerState state s
  | .pcieCompletionTimeout ch => Sys2Proof.Machine.execPcieCompletionTimeout ch s
  | .nodePowerUp tl node ident => Sys2Proof.Machine.execNodePowerUp tl node s ident
  | .nodeOriginatesUpstream tl node => Sys2Proof.Machine.execNodeOriginatesUpstream tl node s
  | .adcStartupCalibration rzero rref => Sys2Proof.Machine.execAdcStartupCalibration rzero rref s
  | .supplyRecover => Sys2Proof.Machine.execSupplyRecover s
  | .debugTestInstruction => Sys2Proof.Machine.execDebugTestInstruction s
  | .gcmdGoReservedOp core slot => Sys2Proof.Machine.execGcmdGoReservedOp core slot s

end Sys2Proof.Machine
end

