-- ==== Sys2Proof/Safety.lean ====
section
/-!
DEFINITION. What a safe run keeps and how the statements speak of a command's effect: that it completes, which part of the state alone
it touches, the canonical form of every memory, the wake sources that are always enabled, the bounds of the fault collector.
-/

namespace Sys2Proof.Machine

/-- The command completes: it answers a next state, and `p` holds of it. -/
def completes (c : Instr) (s : State) (p : State → Prop) : Prop := ∃ t, exec c s = .next t ∧ p t

/-- The collector `g` is `f` after it has taken a detection of class `cls` (R312, R313): the detection joins the record of its merge unit, or
opens one, or takes the reserved entry where it is fatal, or is counted lost. -/
def Flt.intake (d : Detection) (cls : Nat) (f g : Flt) : Prop :=
  let same (r : Record) : Bool := mergeUnit r.kind r.index == mergeUnit d.kind d.index
  let ordinary := (f.records.filter fun r => !r.reserved).length
  let opened (reserved : Bool) (r : Record) : Prop :=
    r.id = f.nextId + 1 ∧ r.source = d.source ∧ r.cls = cls ∧ r.kind = d.kind ∧ r.index = d.index ∧ r.time = d.time ∧ r.plane = d.plane ∧
      r.merges = 0 ∧ r.mask = 1#128 <<< d.source ∧ r.preReset = false ∧ r.visible = false ∧ r.reserved = reserved
  g = { f with records := g.records, nextId := g.nextId, lost := g.lost, ovf := g.ovf, ovfReact := g.ovfReact } ∧
  (f.records.any same = true → g.records.length = f.records.length ∧ g.ovf = f.ovf ∧ g.lost = f.lost ∧
    ∀ (k : Nat) (r : Record), f.records[k]? = some r → ∃ q, g.records[k]? = some q ∧
      (same r = false → q = r) ∧
      (same r = true → q.mask = r.mask ||| (1#128 <<< d.source) ∧ q.cls = max r.cls cls ∧ q.merges = min 0xFFFF (r.merges + 1) ∧
        q.react = r.react ||| d.react.bits ∧ q.id = r.id ∧ q.source = r.source ∧ q.time = r.time)) ∧
  (f.records.any same = false → ordinary < 32 →
    ∃ r, g.records = f.records ++ [r] ∧ opened false r ∧ g.ovf = f.ovf ∧ g.lost = f.lost) ∧
  (f.records.any same = false → 32 ≤ ordinary → cls ≠ 3 → g.records = f.records ∧ g.ovf = true ∧ g.lost = min 0xFF (f.lost + 1)) ∧
  (f.records.any same = false → 32 ≤ ordinary → cls = 3 → f.records.any (·.reserved) = false →
    ∃ r, g.records = f.records ++ [r] ∧ opened true r ∧ g.ovf = f.ovf ∧ g.lost = f.lost)

namespace State

/-- From `s` to `t` the control or data plane has reported one detection of a source, as it stands in `s` (R24): it is the newest of the
reports on its way to the collector. -/
def reports (s t : State) (plane : Plane) (source kind index : Nat) : Prop :=
  t.links.dirs[(toManagement plane).val].reports =
    s.links.dirs[(toManagement plane).val].reports ++ [s.detection plane source kind index]

/-- Every memory of the part, and the host's, is in canonical form. -/
def memoryWf (s : State) : Bool := s.mem.wf && canonical s.dma.hostMem

/-- The sources of R281 that are always enabled read 1 in MGT_WAKEEN: the WAKE pin, clock loss and the ladder command. -/
def wakeWired (s : State) : Bool := s.ladder.wakeEn &&& 0x61 = 0x61

/-- The collector holds at most 32 records and one more for a fatal source (R312, R313). -/
def recordsBounded (s : State) : Prop :=
  (s.flt.records.filter fun r => !r.reserved).length ≤ 32 ∧ (s.flt.records.filter (·.reserved)).length ≤ 1

/-- What every step keeps: canonical memories, the wired wake sources, the bounds of the collector, the 16 entries of the remap table
(R256). -/
def sound (s : State) : Prop := s.memoryWf = true ∧ s.wakeWired = true ∧ s.recordsBounded ∧ s.mem.remap.length ≤ 16

/-! ## Frames: `t` is `s` but for one part -/

/-- Only link direction `d` differs. -/
def dirOnly (d : Fin 6) (s t : State) : Prop :=
  t = { s with links := { s.links with dirs := t.links.dirs } } ∧ ∀ e : Fin 6, e ≠ d → t.links.dirs[e.val] = s.links.dirs[e.val]

/-- Only sprig `n` differs. -/
def sprigOnly (n : Fin 96) (s t : State) : Prop :=
  t = { s with fab := { s.fab with sprigs := t.fab.sprigs } } ∧ ∀ m, m ≠ n → t.sprig m = s.sprig m

/-- Only axis `n` differs. -/
def axisOnly (n : Fin 8) (s t : State) : Prop := t = { s with axes := t.axes } ∧ ∀ m, m ≠ n → t.axis m = s.axis m

/-- Only slot `i` of core `c` differs. -/
def slotOnly (c : Fin 4) (i : Fin 24) (s t : State) : Prop :=
  t = { s with cores := t.cores } ∧ (∀ d, d ≠ c → t.core d = s.core d) ∧
    t.core c = { s.core c with slots := (t.core c).slots } ∧ ∀ j, j ≠ i → t.slot c j = s.slot c j

/-- Only core `c` differs, and of it no slot. -/
def coreOnly (c : Fin 4) (s t : State) : Prop :=
  t = { s with cores := t.cores } ∧ (∀ d, d ≠ c → t.core d = s.core d) ∧ (t.core c).slots = (s.core c).slots

/-- Only Tohevik port `n` differs. -/
def tlkOnly (n : Fin 8) (s t : State) : Prop := t = { s with tlks := t.tlks } ∧ ∀ m, m ≠ n → t.tlk m = s.tlk m

/-- Only what port `n` holds about position `p` differs. -/
def tnodeOnly (n p : Fin 8) (s t : State) : Prop :=
  s.tlkOnly n t ∧ t.tlk n = { s.tlk n with nodes := (t.tlk n).nodes } ∧ ∀ q, q ≠ p → t.tnode n q = s.tnode n q

/-- Only the node at place `p` of cable `n` differs. -/
def nodeOnly (n p : Fin 8) (s t : State) : Prop :=
  t = { s with nodes := t.nodes } ∧ ∀ m q, (m, q) ≠ (n, p) → t.node m q = s.node m q

/-- Only head port `p` differs. -/
def portOnly (p : Fin 4) (s t : State) : Prop := t = { s with ports := t.ports } ∧ ∀ q, q ≠ p → t.port q = s.port q

/-- Only DMA channel `c` differs. -/
def chanOnly (c : Fin 64) (s t : State) : Prop :=
  t = { s with dma := { s.dma with chans := t.dma.chans } } ∧ ∀ d, d ≠ c → t.chan d = s.chan d

end State

end Sys2Proof.Machine
end

