-- ==== Sys2Proof/Certificates/Slice0/Obligations.lean ====
section
/-!
DEFINITION. The statements for the provers. Each docstring says what its statement claims and which rules of spec/ it formalises; a
frame (`sprigOnly` and the like, Safety.lean) says that nothing else of the state changes.
-/

open Sys2Proof Sys2Proof.Machine

/-- For every command and every state whose queue it heads, a step is that command's effect on the state with the rest of the queue. The
queue is the model's own (log entry 1). -/
def Obligations.StepTakesFrontCommand : Prop :=
  ∀ (c : Instr) (rest : List Instr) (s : State), s.pending = c :: rest → step s = exec c { s with pending := rest }

/-- With an empty queue a step is one tick, and the queue stays empty; while FAB, FIRE and LOOP run and no part of the boot or a rung stops
them, the fabric time moves on by 4 steps of 1.25 ns and the loop time by 2 cycles of 2.5 ns, and both stand otherwise. That a step on an
empty queue is one FAB cycle is the model's choice (log entry 1). -/
def Obligations.EmptyQueueTicks : Prop :=
  ∀ s : State, s.pending = [] →
    ∃ t, step s = .next t ∧ t.pending = [] ∧
      (s.fabRuns = true → t.times.fab = s.times.fab + 4) ∧ (s.fabRuns = false → t.times.fab = s.times.fab) ∧
      (s.loopRuns = true → t.times.loop = s.times.loop + 2) ∧ (s.loopRuns = false → t.times.loop = s.times.loop)

/-- Every command whose operands have the shape the spec gives them completes in every state; any other is refused by name. No command
faults. -/
def Obligations.WellFormedCommandsComplete : Prop :=
  ∀ (c : Instr) (s : State),
    (c.wellFormed = true → ∃ t, exec c s = .next t) ∧ (c.wellFormed = false → exec c s = .refused .illFormed)
/-- A message that arrives on a link direction whose planes run: with a correct CRC and the expected SEQ it is accepted, the expected value
moves on by one and a replay is no longer asked for; with a wrong CRC (source 0x50) or a SEQ 1 to 127 ahead (0x51) the receiver asks for a
replay from the expected value and accepts nothing; otherwise the message is dropped and 0x52 raised. Beside the direction, and what raising
the source does, nothing changes.
For every type, SEQ and payload, the message of R17 built from them gives each of them back, and its CRC-8 is correct; inverting any
one of its 96 bits makes the CRC wrong. -/
def Obligations.LinkMessages : Prop :=
  (∀ (d : Fin 6) (m : BitVec 96) (s : State), s.clocked = true →
     completes (.linkMessageReceive d m) s fun t => ∃ u, s.dirOnly d u ∧
       (let l := s.links.dirs[d.val]
        let k := u.links.dirs[d.val]
        let ahead := (msgSeq m - l.expected).toNat
        (msgCrcOk m = true ∧ ahead = 0 → t = u ∧ k.expected = l.expected + 1 ∧ k.accepted = l.accepted ++ [m] ∧ k.request = none ∧
          k.heard = s.times.dev ∧ k.buffer = l.buffer ∧ k.next = l.next ∧ k.failed = l.failed) ∧
        (msgCrcOk m = false → t = u.raise (dirReceiver d) 0x50 7 d.val ∧ k = { l with wire := k.wire, heard := s.times.dev, request := some l.expected }) ∧
        (msgCrcOk m = true ∧ 1 ≤ ahead ∧ ahead ≤ 127 →
          t = u.raise (dirReceiver d) 0x51 7 d.val ∧ k = { l with wire := k.wire, heard := s.times.dev, request := some l.expected }) ∧
        (msgCrcOk m = true ∧ 128 ≤ ahead → t = u.raise (dirReceiver d) 0x52 7 d.val ∧ k = { l with wire := k.wire, heard := s.times.dev }))) ∧
  (∀ (type seq : BitVec 8) (payload : BitVec 64),
     let m := linkMessage type seq payload
     msgType m = type ∧ msgSeq m = seq ∧ msgPayload m = payload ∧ msgCrcOk m = true ∧
       ∀ k : Fin 96, msgCrcOk (m ^^^ (1#96 <<< k.val)) = false)

/-- While both planes run: a replay request with no replay running, where no message has been replayed 8 times without being accepted, puts
every kept message from the requested SEQ to the latest, in order, behind what is on the wire; a heartbeat, sent where the sender has rested
for 1 µs (48 counts of the device time), takes the next SEQ, enters the replay buffer, of which the last 16 stay, and goes on the wire; one
sent earlier changes nothing. A direction not yet failed on which a message has been replayed 8 times, its last copy off the wire, or on
which the receiver has seen no message for 4 µs (192 counts; log entry 35), is marked failed by LINK_FAILED and raises 0x08 with the direction as its
instance; where neither holds nothing changes. Each changes its direction alone, but for what raising the source does. -/
def Obligations.LinkReplayHeartbeatFailure : Prop :=
  (∀ (d : Fin 6) (q : BitVec 8) (s : State), s.clocked = true → s.links.dirs[d.val].replayFrom = none →
    (∀ x ∈ s.links.dirs[d.val].replays, x.2 < 8) →
    completes (.replayRequest d q) s fun t => s.dirOnly d t ∧
      (let l := s.links.dirs[d.val]
       let k := t.links.dirs[d.val]
       k.wire = l.wire ++ l.buffer.filter (fun m => decide ((msgSeq m - q).toNat < (l.next - q).toNat)) ∧ k.replayFrom = some q ∧
         k.buffer = l.buffer ∧ k.next = l.next ∧ k.expected = l.expected ∧ k.accepted = l.accepted)) ∧
  (∀ (d : Fin 6) (s : State), s.clocked = true → since s.times.dev s.links.dirs[d.val].sentAt < 48 →
    completes (.heartbeatMessage d) s (· = s)) ∧
  (∀ (d : Fin 6) (s : State), s.clocked = true → 48 ≤ since s.times.dev s.links.dirs[d.val].sentAt →
    completes (.heartbeatMessage d) s fun t => s.dirOnly d t ∧
      (let l := s.links.dirs[d.val]
       let k := t.links.dirs[d.val]
       k.next = l.next + 1 ∧ ∃ m, msgSeq m = l.next ∧ msgPayload m = s.times.dev.setWidth 64 ∧ k.wire = l.wire ++ [m] ∧
         k.buffer = (l.buffer ++ [m]).drop (l.buffer.length + 1 - 16) ∧ k.expected = l.expected ∧ k.accepted = l.accepted)) ∧
  (∀ (d : Fin 6) (s : State), s.clocked = true → s.links.dirs[d.val].failed = false →
    let l := s.links.dirs[d.val]
    let due := (∃ x ∈ l.replays, 8 ≤ x.2 ∧ ∀ m ∈ l.wire, msgSeq m ≠ x.1) ∨ 192 ≤ since s.times.dev l.heard
    (due → completes (.linkFailed d) s fun t => ∃ u, s.dirOnly d u ∧
      u.links.dirs[d.val] = { l with failed := true } ∧ t = u.raise (dirReceiver d) 0x08 7 d.val) ∧
    (¬due → completes (.linkFailed d) s (· = s)))

/-- LINK_INJECTION_GO where management registers are served: without the OTP permit, MGT_TEST.PERMIT or with a port armed for printing it
only sets CERR of MGT_LINJCTRL; with all of them, a direction 0 to 5 and a kind other than corrupt, and no safe state, the injection runs
from a fresh count of messages and 0x54 is raised for its direction. LINK_INJECTION_STOP ends it. MGT_TEST_PERMIT_WRITE of 0 clears the
permit and ends every injection of the links and the Tohevik ports; of 1 it sets the permit where the OTP permits it and else changes
nothing. -/
def Obligations.InjectionPermits : Prop :=
  (∀ s : State, s.mgmtServed = true → s.mayInject = false →
    completes .linkInjectionGo s fun t => t = { s with links := { s.links with inj := { s.links.inj with cerr := true } } }) ∧
  (∀ s : State, s.mgmtServed = true → s.mayInject = true → s.flt.safe = false → s.links.inj.sel < 6 → s.links.inj.kind ≠ 2 →
    completes .linkInjectionGo s fun t => ∃ u : State, t = u.raise .management 0x54 7 s.links.inj.sel ∧
      u = { s with links := u.links } ∧ (s.links.inj.held = none → u.links.dirs = s.links.dirs) ∧ u.links.inj.active = true ∧ u.links.inj.seen = 0 ∧
      u.links.inj.kind = s.links.inj.kind ∧ u.links.inj.pattern = s.links.inj.pattern ∧ u.links.inj.n = s.links.inj.n) ∧
  (∀ s : State, s.mgmtServed = true →
    completes .linkInjectionStop s fun t => t = { s with links := t.links } ∧ t.links.inj.active = false ∧
      (s.links.inj.held = none → t.links.dirs = s.links.dirs)) ∧
  (∀ s : State, s.mgmtServed = true →
    completes (.mgtTestPermitWrite false) s fun t => t.sys = { s.sys with permit := false } ∧ t.links.inj.active = false ∧
      (∀ n, (t.tlk n).inj.active = false) ∧
      (s.links.inj.held = none → t.links.dirs = s.links.dirs) ∧
      t = { s with sys := t.sys, thm := t.thm, links := t.links, tlks := t.tlks }) ∧
  (∀ s : State, s.mgmtServed = true → s.injPermitted = false → completes (.mgtTestPermitWrite true) s fun t => t = s) ∧
  (∀ s : State, s.mgmtServed = true → s.injPermitted = true →
    completes (.mgtTestPermitWrite true) s fun t => t = { s with sys := { s.sys with permit := true }, thm := t.thm })
/-- For every source of the table and every value, where management registers are served: a write that sets INT with VECTOR 0, a non-zero
VECTOR without INT, BLKRST where BRALLOW is 0, or clears ERRN of a fatal source changes nothing but FLT_STAT.CERR; any other write makes the
five reaction bits and VECTOR of that source, and of no other, those of the value, and changes nothing else. FLT_REACT32 resets to
0x0002_0321 and FLT_REACT5 to 0x0003_0012. -/
def Obligations.ReactionWriteWholeOrIgnored : Prop :=
  (∀ (source : BitVec 8) (v : Word) (i : SourceInfo) (s : State), s.mgmtServed = true → sourceInfo source.toNat = some i →
    completes (.fltReactWrite source v) s fun t =>
      let vector := (v.extractLsb' 8 5).toNat
      let bad := (v.getLsbD 0 = true ∧ vector = 0) ∨ (v.getLsbD 0 = false ∧ vector ≠ 0) ∨ (v.getLsbD 2 = true ∧ i.blockReset = false) ∨
        (v.getLsbD 4 = false ∧ i.cls = 3)
      (bad → t = { s with flt := { s.flt with cerr := true } }) ∧
      (¬bad → t = { s with flt := { s.flt with react := t.flt.react } } ∧
        elem? t.flt.react source.toNat =
          some { int := v.getLsbD 0, trap := v.getLsbD 1, blkrst := v.getLsbD 2, chiprst := v.getLsbD 3, errn := v.getLsbD 4, vector } ∧
        ∀ m, m ≠ source.toNat → elem? t.flt.react m = elem? s.flt.react m)) ∧
  React.word 32 (defaultReact 32) = 0x00020321 ∧ React.word 5 (defaultReact 5) = 0x00030012

/-- A detection that the collector takes (`intake`, Safety.lean): with an open record of its merge unit that record alone takes the source's
SECMASK bit, the higher class, the reactions and one more merge; otherwise with fewer than 32 ordinary records it opens one at the end of the
list with its own source, class, instance and time and the next ID; with 32 open, one that is not fatal changes no record, sets OVF and
counts in LOST, and a fatal one takes the free reserved entry. FAULT_REPORT of a source of the table in the management plane whose block reset
is not set does so with the detection it names. FAULT_REPORT of the control or data plane does so with the oldest report its link has
delivered, where it names that report, and takes the message (log entries 34 and 133). Only the collector, its messages to the host, the chip reset owed, and the
thermal regime or the message taken change.
A source that the control or data plane raises, and that resets no block, sends one TYPE 0x20 message on that plane's link to the management
plane, with the detection's time and the reactions of that moment; beside it only the safe state and the regime of a fatal one change. -/
def Obligations.DetectionIntake : Prop :=
  (∀ (source kind : BitVec 8) (index : BitVec 24) (time : Time48) (i : SourceInfo) (s : State),
    sourceInfo source.toNat = some i → (s.flt.reactOf source.toNat).blkrst = false →
    completes (.faultReport .management source kind index time) s fun t =>
      let d : Detection :=
        { plane := .management, source := source.toNat, kind := kind.toNat, index := index.toNat, time, react := s.flt.reactOf source.toNat }
      t = { s with sys := { s.sys with resetOwed := t.sys.resetOwed }, flt := t.flt, thm := t.thm, host := t.host } ∧
      Flt.intake d i.cls { s.flt with safe := t.flt.safe, clockOrHeartbeat := t.flt.clockOrHeartbeat } t.flt) ∧
  (∀ (plane : Plane) (source kind : BitVec 8) (index : BitVec 24) (time : Time48) (m : BitVec 96) (d : Detection) (i : SourceInfo) (s : State),
    plane ≠ .management → s.mgmtClocked = true → s.reportDue plane = some (m, d) → sourceInfo d.source = some i →
    d.source = source.toNat → d.kind = kind.toNat → d.index = index.toNat → d.time = time →
    completes (.faultReport plane source kind index time) s fun t =>
      let n := (toManagement plane).val
      t = { s with sys := { s.sys with resetOwed := t.sys.resetOwed }, flt := t.flt, host := t.host,
                   links := { s.links with dirs := t.links.dirs } } ∧
      Flt.intake d i.cls s.flt t.flt ∧ (elem? t.links.dirs n).map (·.reports) = (elem? s.links.dirs n).map (·.reports.drop 1) ∧
      ∀ k, k ≠ n → elem? t.links.dirs k = elem? s.links.dirs k) ∧
  (∀ (plane : Plane) (source kind index : Nat) (i : SourceInfo) (s : State), plane ≠ .management → sourceInfo source = some i →
    source ≠ 0x20 → source ≠ 0x30 → source ≠ 0x37 → source ≠ 0x53 →
    let t := s.raise plane source kind index
    t = { s with flt := t.flt, thm := t.thm, links := t.links } ∧ s.reports t plane source kind index ∧
      t.flt = { s.flt with safe := s.flt.safe || i.cls == 3, clockOrHeartbeat := s.flt.clockOrHeartbeat || source == 7 || source == 8 } ∧
      (s.links.inj.active = false → ∃ m, msgType m = 0x20 ∧ t.links.dirs[(toManagement plane).val].wire =
        s.links.dirs[(toManagement plane).val].wire ++ [m]))

/-- For every state, plane, reactions and source of class fatal: once it is raised, and after FAULT_REPORT of one of the management plane,
the safe state is in force, the thermal regime is recovery, the die shutdown level is as it was, and ERR_N is asserted unless the part is
held in reset. One of any other class leaves the safe state and the recovery regime as they are.
While the safe-state lines assert, SAFE_STATE_ENTRY leaves no port armed, each that was with DISCAUSE 3 and no seam, no slot running or
holding, every sprig without a pending set or slot output and inactive, every running Tohevik port sending SAFE and no injection active; the
management plane and the ladder carry on. FLT_SAFE_END ends the safe state where no open record and no report
on its way is fatal, the shutdown level is not in force, no clock-loss bit is set and no 0x07 or 0x08 has come since the chip reset; slots,
sprigs, ports and nodes stay as they are. Where one of these fails it sets FLT_STAT.CERR alone. -/
def Obligations.FatalDetectionAndSafeState : Prop :=
  (∀ (plane : Plane) (source kind index : Nat) (i : SourceInfo) (s : State), sourceInfo source = some i →
     let t := s.raise plane source kind index
     (i.cls = 3 → t.flt.safe = true ∧ t.regime = 3 ∧ t.thm.shut = s.thm.shut ∧ (t.sys.phase ≠ .inReset → t.errN = true)) ∧
       (i.cls ≠ 3 → t.flt.safe = s.flt.safe ∧ t.thm.recovery = s.thm.recovery)) ∧
  (∀ (source kind : BitVec 8) (index : BitVec 24) (time : Time48) (i : SourceInfo) (s : State),
     sourceInfo source.toNat = some i →
     completes (.faultReport .management source kind index time) s fun t =>
       (i.cls = 3 → t.flt.safe = true ∧ t.regime = 3 ∧ t.thm.shut = s.thm.shut ∧ (t.sys.phase ≠ .inReset → t.errN = true)) ∧
       (i.cls ≠ 3 → t.flt.safe = s.flt.safe ∧ t.thm.recovery = s.thm.recovery)) ∧
  ((∀ s : State, s.flt.safe = true →
     completes .safeStateEntry s fun t =>
       (∀ p, (t.port p).arm.armed = false) ∧
       (∀ p, (s.port p).arm.armed = true → (t.port p).arm.discause = 3 ∧ (t.port p).seam.state = 0) ∧
       (∀ p, (s.port p).arm.armed = false → (t.port p).arm = (s.port p).arm) ∧
       (∀ c i, (t.slot c i).state ≠ .running ∧ (t.slot c i).state ≠ .holding) ∧
       (∀ n, (t.sprig n).active = false ∧ (t.sprig n).pend = none ∧ (t.sprig n).slotOut = none ∧ (t.sprig n).quad = (s.sprig n).quad) ∧
       (∀ n, (t.tlk n).state ≠ .running ∧ (t.tlk n).inj.active = false ∧ ((s.tlk n).state = .running → (t.tlk n).state = .safe)) ∧
       t.links.inj.active = false ∧
       t.sys = s.sys ∧ t.ladder = s.ladder ∧ t.times = s.times ∧ t.flt = s.flt ∧ t.otp = s.otp ∧ t.thm = s.thm ∧ t.cal = s.cal ∧
         t.top = s.top ∧ t.axes = s.axes ∧ t.nodes = s.nodes ∧ t.host = s.host ∧ t.env = s.env ∧ t.pending = s.pending) ∧
   (∀ s : State, s.mgmtServed = true → s.flt.safe = true →
     completes .fltSafeEnd s fun t =>
       let mayEnd := (∀ r ∈ s.flt.records, r.cls ≠ 3) ∧
         (∀ d ∈ s.reportsUnderWay, ∀ i, sourceInfo d.source = some i → i.cls ≠ 3) ∧ s.thm.shut = false ∧ s.sys.clkLoss = 0 ∧ s.flt.clockOrHeartbeat = false
       (mayEnd → t.flt = { s.flt with safe := false } ∧ t.thm.recovery = false ∧ t.regime ≠ 3 ∧
         (∀ n, t.tlk n = { s.tlk n with state := if (s.tlk n).state = .safe then .running else (s.tlk n).state }) ∧
         t = { s with flt := t.flt, thm := t.thm, tlks := t.tlks }) ∧
       (¬mayEnd → t = { s with flt := { s.flt with cerr := true } })))

/-- Where management registers are served: RECORD_RELEASE makes the earliest hidden record visible once both links to the collector have
delivered that device time, and nothing else of any record changes; FLT_HEAD_READ returns the head record's word, 0 where none is visible,
and latches that record; FLT_ACK closes the head record by its ID, and any other ID sets CERR alone; LOST_READ returns FLT_STAT and clears
LOST.
HEARTBEAT_TIMEOUT raises 0x08 with KIND 0x08 and the block's number where the block is present and clocked, and changes nothing for a
block that is not. -/
def Obligations.RecordsAndHeartbeats : Prop :=
  ((∀ (r : Record) (s : State), s.mgmtServed = true → s.flt.nextRelease = some r → releasable s.links r = true →
     completes .recordRelease s fun t => t = { s with flt := { s.flt with records := t.flt.records }, host := t.host } ∧
       t.flt.records = s.flt.records.map (fun x => if x.id = r.id ∧ x.visible = false then { x with visible := true } else x)) ∧
   (∀ s : State, s.mgmtServed = true →
     completes .fltHeadRead s fun t => t = { s with flt := { s.flt with latched := s.flt.head }, host := { s.host with rdata := t.host.rdata } } ∧
       (s.flt.head = none → t.host.rdata = [0]) ∧
       (∀ r, s.flt.head = some r → ∃ w : Word, t.host.rdata = [w] ∧ w.getLsbD 31 = true ∧ w.extractLsb' 0 16 = r.id ∧
         w.getLsbD 28 = r.preReset ∧ (r.source < 256 → (w.extractLsb' 16 8).toNat = r.source) ∧
         (r.cls < 4 → (w.extractLsb' 29 2).toNat = r.cls))) ∧
   (∀ (id : BitVec 16) (s : State), s.mgmtServed = true →
     completes (.fltAck id) s fun t =>
       (∀ r, s.flt.head = some r → r.id = id →
         t = { s with flt := { s.flt with records := s.flt.records.filter fun x => !(x.visible && x.id = id) } }) ∧
       ((∀ r, s.flt.head = some r → r.id ≠ id) → t = { s with flt := { s.flt with cerr := true } })) ∧
   (∀ s : State, s.mgmtServed = true →
     completes .lostRead s fun t => t = { s with flt := { s.flt with lost := 0 }, host := { s.host with rdata := [s.fltStat] } })) ∧
  ((∀ (b : Fin 26) (s : State), s.clocked = true → s.hasBlock b.val = true →
     completes (.heartbeatTimeout b) s fun t => t = s.raise .management 0x08 8 b.val) ∧
   (∀ (b : Fin 26) (s : State), s.clocked = false ∨ s.hasBlock b.val = false → completes (.heartbeatTimeout b) s fun t => t = s))

/-- While the fabric is clocked: a FWD write of a new value 0 to 2 on an axis with no armed port takes it, sets HWM to COUNT, ends any
excursion and empties the window, and is ignored otherwise; POSLO returns the low word and latches the record; EXC_DEPTH returns the
deepest excursion and clears it; a stall is noted where the quiet time exceeds 4·b of a tracking axis; an excursion longer than 8·b of a
full window empties it and sets EXCLONG. Each touches its axis alone.
AXIS_UNSETTLED_AT_LINE at a pending line that an unsettled axis has reached, and SOS_MISSING of an overdue anchor (which raises 0x36), on
a port without a seam: the port's UNSET or SOS cause is set, SEAMSTAT.STATE is 1, its count of seams grows by one and the stop line is the
last line fired (the one before the line due where none has), or the last line of the latest anchor. Firing, arming and heads of every port
stay as they are, and so does everything outside the ports and their messages. -/
def Obligations.AxisCommands : Prop :=
  ((∀ (n : Fin 8) (v : BitVec 2) (s : State), s.clocked = true →
     completes (.posFwdWrite n v) s fun t =>
       (v ≠ 3 ∧ s.axisArmed n = false ∧ v.toNat ≠ (s.axis n).fwd → s.axisOnly n t ∧
         t.axis n = { s.axis n with fwd := v.toNat, hwm := s.axisCount n, exc := none, window := [], unset := true, stalled := false,
                                    excDone := 0 }) ∧
       (v = 3 ∨ s.axisArmed n = true ∨ v.toNat = (s.axis n).fwd → t = s)) ∧
   (∀ (n : Fin 8) (s : State), s.clocked = true →
     completes (.posloRead n) s fun t => ∃ w : Word, t = { s with axes := t.axes, host := { s.host with rdata := [w] } } ∧
       (∀ m, m ≠ n → t.axis m = s.axis m) ∧ w = BitVec.ofInt 32 (s.axisPos n) ∧
       t.axis n = { s.axis n with latch := (t.axis n).latch } ∧ (t.axis n).latch.hwm = (s.axis n).hwm ∧
       (t.axis n).latch.vel = BitVec.ofInt 32 (s.axis n).velocity ∧ (t.axis n).latch.posHi.extractLsb' 16 16 = (s.axis n).upd) ∧
   (∀ (n : Fin 8) (s : State), s.clocked = true →
     completes (.excDepthRead n) s fun t => t = { s with axes := t.axes, host := { s.host with rdata := [BitVec.ofNat 32 (s.axis n).depth] } } ∧
       (∀ m, m ≠ n → t.axis m = s.axis m) ∧ t.axis n = { s.axis n with depth := 0 }) ∧
   (∀ (n : Fin 8) (s : State), s.clocked = true → (s.axis n).tracking = true → (s.axis n).stalled = false →
     256 * (s.axis n).quiet s.times.fab > 4 * (s.axis n).b256 →
     completes (.axisStall n) s fun t => s.axisOnly n t ∧ t.axis n = { s.axis n with stalled := true, stall := true }) ∧
   (∀ (n : Fin 8) (u : Time48) (s : State), s.clocked = true → (s.axis n).exc = some u → (s.axis n).window.length = 4 →
     256 * since s.times.fab u > 8 * (s.axis n).b256 →
     completes (.excursionLong n) s fun t => s.axisOnly n t ∧
       t.axis n = { s.axis n with window := [], unset := true, stalled := false, excDone := 0, exclong := true })) ∧
  ((∀ (p : Fin 4) (n : Fin 8) (s : State), s.portAxis p = some n → s.linePending p = true → s.axisSettled n = false →
     s.lineReached p n = true → (s.port p).seam.state = 0 →
     completes (.axisUnsettledAtLine p) s fun t =>
       let m := (t.port p).seam
       m.state = 1 ∧ m.unset = true ∧ m.stopFrom = some (s.port p).nextLine ∧ m.count = min 0xFFFF ((s.port p).seam.count + 1) ∧
       m.line = (if 0 ≤ (s.port p).pdp.fired then (s.port p).pdp.fired else ((s.port p).nextLine : Int) - 1) ∧
       t = { s with ports := t.ports, links := t.links, free := t.free } ∧
       ∀ q, t.port q = { s.port q with seam := (t.port q).seam }) ∧
   (∀ (p : Fin 4) (n : Fin 8) (s : State), s.portAxis p = some n → s.clocked = true → s.sosOverdue p n = true →
     (s.port p).seam.state = 0 →
     completes (.sosMissing p) s fun t =>
       let m := (t.port p).seam
       m.state = 1 ∧ m.sos = true ∧ m.line = s.sosStopLine p ∧ (t.port p).sos = { (s.port p).sos with missed := true } ∧
       s.reports t .data 0x36 4 p.val ∧ t = { s with ports := t.ports, links := t.links, free := t.free } ∧
       ∀ q, t.port q = { s.port q with seam := (t.port q).seam, sos := (t.port q).sos }))

/-- LINE_COMMIT of a pending line that is due on a settled axis, with its tags valid and its bits assembled: the line is committed, not yet
fired, with the port's strobe width and fire instant, and F takes its tag where it lies beyond F; a resume line ends its seam. The drops that the
line before has not yet counted are counted (R178). With the ahead margin at STOP_TH or more, or unlimited,
beside that only that port changes, and of it only firing, F and a seam it ends; below STOP_TH in page
mode without a seam, 0x23 is raised and a seam starts that names the lesser of V and F + N_dec.
For every profile with STB_MIN not above STB_MAX, every energy set, supply and temperature, the width a port computes, in steps of
1.25 ns, lies between those of the two limits; nothing but the width changes, except that a clamped one counts once in its counter. -/
def Obligations.LineCommitAndWidth : Prop :=
  (∀ (p : Fin 4) (n : Fin 8) (d : Int) (vhs : List SenseSample) (s : State),
     s.portAxis p = some n → s.lineDistance p n = some d → s.linePending p = true → s.axisSettled n = true →
     s.dueWithin n d ((s.prof p).latW + 20) = true → (s.port p).tagsValid (s.prof p) (s.port p).nextLine = true →
     (s.port p).pdp.asm.any (fun a => a.line = (s.port p).nextLine) = true →
     completes (.lineCommit p vhs) s fun t =>
       let s0 := s.countStrobes p (s.prof p).strobes
       let q := s.port p
       let k := t.port p
       let f := max q.pdp.f q.nextLine
       let margin := ({ q.pdp with f := f } : Pdp).margin (s.prof p).sMax
       k.pdp = { q.pdp with f := f } ∧ k.arm = q.arm ∧ k.sos = q.sos ∧ k.head = (s0.port p).head ∧ k.temp = q.temp ∧
       k.test = q.test ∧
       (∃ x, k.fire.committed = some x ∧ x.line = q.nextLine ∧ x.fired = false ∧ x.width = k.fire.width ∧ k.fire.lastFire = some x.tFire ∧
         x.fromGroup = (if q.seam.state = 4 then q.seam.grp else 0)) ∧
       ((∀ m, margin = some m → ((s.prof p).stopTh : Int) ≤ m) → s0.portOnly p t ∧ k.seam = (if q.seam.state = 4 then q.seam.ended else q.seam)) ∧
       (∀ m, margin = some m → m < (s.prof p).stopTh → (s.prof p).scan = false → q.seam.state = 0 → q.seam.late = false →
         k.seam.state = 1 ∧ k.seam.late = true ∧ k.seam.stopFrom = none ∧
         k.seam.line = min (({ q.pdp with f := f } : Pdp).v (s.prof p).sMax) (f + nDec (s.prof p) (s.portSeamRec p)) ∧
         s.reports t .data 0x23 4 p.val)) ∧
  (∀ (r : Profile) (temp : Int) (pct : Nat) (f : Fire), r.stbMin ≤ r.stbMax →
     let g := f.computeWidth r temp pct
     (divNearest (4 * r.stbMin) 5).toNat ≤ g.width ∧ g.width ≤ (divNearest (4 * r.stbMax) 5).toNat ∧
       ((g = { f with width := g.width }) ∨
         (g = { f with width := (divNearest (4 * r.stbMax) 5).toNat, clampHi := min 0xFFFF (f.clampHi + 1) }) ∨
         (g = { f with width := (divNearest (4 * r.stbMin) 5).toNat, clampLo := min 0xFFFF (f.clampLo + 1) })))

/-- LINE_FIRE of a committed line whose instant has come, on a port without a seam: the line counts as fired, assembled lines before it are
dropped, DONE is set after the last line of the job, HMBUSY ends with the last line of the old set, and the shift
of the next line begins. Armed for printing, DROPS grows by the dots of the strobes that have risen by then and are not yet counted (log entry
86), and the keep-RAM entry takes the head's counts; in a dry run neither changes. Other ports, sprigs, axes, slots, nodes, the
management plane and the fault collector are untouched. -/
def Obligations.LineFireEffect : Prop :=
  ∀ (p : Fin 4) (x : Committed) (s : State), s.clocked = true → (s.port p).fire.committed = some x → x.fired = false →
    (x.tFire - s.times.fab).toInt ≤ 0 → (s.port p).seam.state = 0 →
    completes (.lineFire p) s fun t =>
      let q := s.port p
      let k := t.port p
      let n := Committed.issued (s.prof p) s.times.fab { x with fired := true }
      k.fire = { q.fire with committed := some { x with fired := true, counted := max x.counted n }, shiftAt := x.tFire } ∧ k.pdp.fired = x.line ∧ k.pdp.f = q.pdp.f ∧
      k.pdp.asm = q.pdp.asm.filter (fun a => decide (x.line ≤ a.line)) ∧
      (q.pdp.lastLine (s.prof p) = some x.line → k.pdp.done = true) ∧ (q.pdp.lastLine (s.prof p) ≠ some x.line → k.pdp.done = q.pdp.done) ∧
      (q.pdp.hmEnd ≤ x.line → k.pdp.hmbusy = false) ∧ k.arm = q.arm ∧ k.seam = q.seam ∧ k.temp = q.temp ∧
      (q.arm.dryrun = true → k.head = q.head ∧ t.mem = s.mem) ∧
      (q.arm.dryrun = false → x.counted < n → ∃ drops, k.head.drops = min (2 ^ 48 - 1) (q.head.drops + drops) ∧
        (∀ a, q.pdp.asm.find? (fun a => a.line = x.line) = some a → drops = (s.prof p).dropsOf x.counted n a) ∧
        elem? t.mem.usage p.val = some (some (q.head.id, k.head.drops, q.head.useq)) ∧ t.mem = { s.mem with usage := t.mem.usage }) ∧
      t = { s with ports := t.ports, dma := t.dma, mem := t.mem } ∧ ∀ o, o ≠ p → t.port o = s.port o

/-- LINE_ASSEMBLE of a line the port may assemble, where no byte it reads is uncorrectable: the assembled lines hold exactly one entry for
that line, with one bit string of SHIFT_LEN bits for each lane, and every nozzle code is not 0 and names a nozzle of the head; the line
counts as assembled. Beside ports, channels' dot counts and what memory reads report, nothing changes; where no read corrects a byte, no
memory and no link changes.
For an armed port that waits for a replay, on a clocked part, with none running or lost, and no burst of its channel, which holds its engine,
in flight: with every asked tag in the channel's log REPLAY_START starts it, and else it fails: 0x24 is raised and the port stays held.
REPLAY_COMPLETE of a replay of one tag whose logged descriptor copies from host memory, while the link serves it, makes the tag valid and
ends the replay with the UE cause cleared; one whose first tag is not in the log fails as above; one that asks for no tag ends with the UE
cause cleared. A port that waits for none, or replays none, does not change. -/
def Obligations.LineAssemblyAndReplay : Prop :=
  (∀ (p : Fin 4) (s : State),
     let line := ((s.port p).pdp.assembled + 1).toNat
     let r := s.prof p
     let q := { s.port p with pdp := (s.port p).pdp.reachSet r (s.port p).sos.lines line }
     s.mayAssemble p line = true → (∀ x ∈ q.readRanges r line, (s.mem.read 0 x.1 x.2).uncorrectable = []) →
     completes (.lineAssemble p) s fun t =>
       let k := t.port p
       k.pdp.assembled = line ∧ k.pdp.f = (s.port p).pdp.f ∧ k.pdp.fired = (s.port p).pdp.fired ∧ k.arm = (s.port p).arm ∧
       (∃ a, k.pdp.asm.filter (fun x => x.line = line) = [a] ∧ a.lanes.length = r.lanes ∧ (∀ l ∈ a.lanes, l.length = r.shiftLen) ∧
         ∀ c ∈ a.codes, c.2 ≠ 0 ∧ c.1 < r.rows * r.npr) ∧
       k.pdp.asm.filter (fun x => x.line ≠ line) = (s.port p).pdp.asm.filter (fun x => x.line ≠ line) ∧
       t.fab = s.fab ∧ t.axes = s.axes ∧ t.cores = s.cores ∧ t.tlks = s.tlks ∧ t.nodes = s.nodes ∧ t.ladder = s.ladder ∧ t.times = s.times ∧
         t.top = s.top ∧ t.otp = s.otp ∧ t.cal = s.cal ∧ t.env = s.env ∧ t.pending = s.pending ∧ (∀ o, o ≠ p → t.port o = s.port o) ∧
       ((∀ x ∈ q.readRanges r line, (s.mem.read 0 x.1 x.2).corrected = []) → t.links = s.links ∧ t.mem = s.mem ∧ t.flt = s.flt)) ∧
  (∀ (p : Fin 4) (s : State), s.clocked = true →
     let d := (s.port p).pdp
     let fails (t : State) : Prop :=
       t = { s with ports := t.ports, links := t.links, dma := { s.dma with engines := t.dma.engines } } ∧
       (∀ k, k ≠ p → t.port k = s.port k) ∧ t.port p = { s.port p with pdp := { d with replay := false, replayLost := true } } ∧
       s.reports t .data 0x24 4 p.val
     ((s.port p).arm.armed = true → d.replay = false → d.replayLost = false → (d.wanted ≠ [] ∨ (s.port p).seam.ue = true) →
       (∀ c : Fin 64, d.channel = some c.val → (s.chan c).bursts = [] ∧ s.granted c = true) →
       ((∀ t ∈ d.wanted, s.loggedFor p t ≠ none) →
         completes (.replayStart p) s fun t => s.portOnly p t ∧ t.port p = { s.port p with pdp := { d with replay := true } }) ∧
       ((∃ t ∈ d.wanted, s.loggedFor p t = none) → completes (.replayStart p) s fails)) ∧
     (d.wanted = [] → (s.port p).seam.ue = false → completes (.replayStart p) s (· = s)) ∧
     (d.replay = true → s.host.link = .l0 →
       (∀ t rest, d.wanted = t :: rest → s.loggedFor p t = none → completes (.replayComplete p) s fails) ∧
       (∀ (tag : Nat) (x : Desc), d.wanted = [tag] → s.loggedFor p tag = some x → x.fills = false → x.srck = 0 → 0 < (s.prof p).lineBytes →
         completes (.replayComplete p) s fun t => tag ∈ (t.port p).pdp.valid ∧ (t.port p).pdp.replay = false ∧ (t.port p).seam.ue = false ∧
           (t.port p).arm = (s.port p).arm ∧ ∀ k, k ≠ p → t.port k = s.port k) ∧
       (d.wanted = [] → completes (.replayComplete p) s fun t => (t.port p).pdp.replay = false ∧ (t.port p).seam.ue = false ∧
         (t.port p).arm = (s.port p).arm ∧ (∀ k, k ≠ p → t.port k = s.port k) ∧
         t = { s with ports := t.ports, links := t.links, dma := { s.dma with engines := t.dma.engines } })) ∧
     (d.replay = false → completes (.replayComplete p) s (· = s)))

/-- Of every dot of a page-mode line with REDUND at least 1: where its drop code is 0 or its mask entry is 8 or more it goes nowhere;
otherwise it goes to row (entry mod REDUND + k) mod REDUND of its group for the least k for which that nozzle is healthy, and is unplaceable
exactly where no nozzle of its position is healthy. -/
def Obligations.PageDotPlacement : Prop :=
  ∀ (m : MemSys) (r : Profile) (d : Pdp) (tag c j : Nat), 1 ≤ r.redund →
    let set := d.setFor tag
    let v := m.maskEntry r (patternOf set.1 c) (tag % 64) (j % 64)
    let ok (k : Nat) := m.healthy r set.2 ((c * r.redund + k) * r.npr + j)
    (m.dropCode r tag c j = 0 ∨ 8 ≤ v → m.pageDot r d tag c j = .absent) ∧
    (m.dropCode r tag c j ≠ 0 → v < 8 →
      (∀ k, m.pageDot r d tag c j = .goes k ↔
        ∃ i, i < r.redund ∧ k = (v % r.redund + i) % r.redund ∧ ok k = true ∧ ∀ h, h < i → ok ((v % r.redund + h) % r.redund) = false) ∧
      (m.pageDot r d tag c j = .unplaceable ↔ ∀ k, k < r.redund → ok k = false))
/-- For a present, clocked port. PDP_COMMIT and PDP_COMMIT_SWAP with a set pending, HMBUSY, or armed in page mode with APPLYTAG not beyond the
last line assembled, only set CERR; otherwise an armed port keeps MASKSEL, APPLYTAG and the swap as its pending set, and a disarmed one
takes MASKSEL, and the other health map copy with a swap, at once. PDP_DISCARD drops the pending set. PDP_LOWMARK_WRITE takes a value from
STOP_TH + 1 to HIGH_MARK − 1 of a profile and else sets CERR. UNPL_READ returns the count and clears it. Nothing else changes.
For a present, clocked port: ENERGY_COMMIT makes the shadow set pending where STEP, E and F0 to F7 are not 0, and else sets CERR alone;
ENERGY_DISCARD drops the pending set; CLAMPS_READ and SEAMCNT_READ return their counts and clear them. Nothing else changes. -/
def Obligations.PortRegisterCommands : Prop :=
  ((∀ (p : Fin 4) (swap : Bool) (s : State), s.clocked = true → s.hasPort p = true →
     completes (if swap then .pdpCommitSwap p else .pdpCommit p) s fun t =>
       let q := s.port p
       let refused := q.pdp.pend ≠ none ∨ q.pdp.hmbusy = true ∨ (q.arm.armed = true ∧ (q.pdp.applytag.toNat : Int) ≤ q.pdp.assembled)
       s.portOnly p t ∧
       (refused → t.port p = { q with pdp := { q.pdp with cerr := true } }) ∧
       (¬refused → q.arm.armed = true → (s.prof p).scan = false →
         t.port p = { q with pdp := { q.pdp with pend := some ⟨q.pdp.masksel, q.pdp.applytag.toNat, swap⟩ } }) ∧
       (¬refused → q.arm.armed = false →
         t.port p = { q with pdp := { q.pdp with maskact := q.pdp.masksel, mapset := q.pdp.mapset ^^ swap, pend := none, switchTag := 0 } })) ∧
   (∀ (p : Fin 4) (s : State), s.clocked = true → s.hasPort p = true →
     completes (.pdpDiscard p) s fun t => s.portOnly p t ∧ t.port p = { s.port p with pdp := { (s.port p).pdp with pend := none } }) ∧
   (∀ (p : Fin 4) (low : BitVec 16) (s : State), s.clocked = true → s.hasPort p = true →
     completes (.pdpLowmarkWrite p low) s fun t => s.portOnly p t ∧
       ((s.profile p).isSome = true ∧ (s.prof p).stopTh + 1 ≤ low.toNat ∧ low.toNat + 1 ≤ (s.prof p).highMark →
         t.port p = { s.port p with pdp := { (s.port p).pdp with lowmark := low.toNat } }) ∧
       (¬((s.profile p).isSome = true ∧ (s.prof p).stopTh + 1 ≤ low.toNat ∧ low.toNat + 1 ≤ (s.prof p).highMark) →
         t.port p = { s.port p with pdp := { (s.port p).pdp with cerr := true } })) ∧
   (∀ (p : Fin 4) (s : State), s.clocked = true → s.hasPort p = true →
     completes (.unplRead p) s fun t =>
       t = { s with ports := t.ports, host := { s.host with rdata := [BitVec.ofNat 32 (s.port p).pdp.unpl] } } ∧
       (∀ q, q ≠ p → t.port q = s.port q) ∧ t.port p = { s.port p with pdp := { (s.port p).pdp with unpl := 0 } })) ∧
  ((∀ (p : Fin 4) (s : State), s.clocked = true → s.hasPort p = true →
     completes (.energyCommit p) s fun t =>
       let f := (s.port p).fire
       let whole := f.shadow.step ≠ 0 ∧ f.shadow.e ≠ 0 ∧ ∀ i : Fin 8, f.shadow.f[i.val] ≠ 0
       s.portOnly p t ∧ (whole → t.port p = { s.port p with fire := { f with pend := some f.shadow } }) ∧
         (¬whole → t.port p = { s.port p with fire := { f with cerr := true } })) ∧
   (∀ (p : Fin 4) (s : State), s.clocked = true → s.hasPort p = true →
     completes (.energyDiscard p) s fun t => s.portOnly p t ∧ t.port p = { s.port p with fire := { (s.port p).fire with pend := none } }) ∧
   (∀ (p : Fin 4) (s : State), s.clocked = true → s.hasPort p = true →
     completes (.clampsRead p) s fun t => ∃ w : Word, t = { s with ports := t.ports, host := { s.host with rdata := [w] } } ∧
       w.toNat = (s.port p).fire.clampLo % 65536 + 65536 * ((s.port p).fire.clampHi % 65536) ∧
       (∀ q, q ≠ p → t.port q = s.port q) ∧ t.port p = { s.port p with fire := { (s.port p).fire with clampHi := 0, clampLo := 0 } }) ∧
   (∀ (p : Fin 4) (s : State), s.clocked = true → s.hasPort p = true →
     completes (.seamcntRead p) s fun t =>
       t = { s with ports := t.ports, host := { s.host with rdata := [BitVec.ofNat 32 (s.port p).seam.count] } } ∧
       (∀ q, q ≠ p → t.port q = s.port q) ∧ t.port p = { s.port p with seam := { (s.port p).seam with count := 0 } }))

/-- For a present, clocked port. HEALTH_TEST_GO where the test is allowed starts it with no nozzle visited; where the port is armed, a test
runs (log entry 141), no head is accepted or COUNT is 0, it only sets CERR. HEALTH_TEST_CYCLE (log entry 84) a period of RATE after the cycle before, whose pulse is
over and judged, and whose greyscale byte, where it has one, reads clean: a cycle that is not the last visits one nozzle, notes it missing exactly
where it is judged so, and gives the port the firing state of that cycle; a continuity cycle leaves DROPS and memory as they are. A
continuity pulse is judged healthy exactly where the mean of the codes before it less the mean over it lies in CTMIN to CTMAX. The last cycle
of a continuity test, with a clean map, ends the test and changes no byte of any memory but those of the map copy not in force.
HEALTH_TEST_ABORT ends a running test as aborted. -/
def Obligations.HealthTestCommands : Prop :=
  (∀ (p : Fin 4) (s : State), s.clocked = true → s.hasPort p = true →
    completes (.healthTestGo p) s fun t =>
      (s.testAllowed p = true → t = { s with ports := t.ports, quiesce := t.quiesce, links := t.links } ∧ (∀ q, q ≠ p → t.port q = s.port q) ∧
        t.port p = { s.port p with test :=
          { (s.port p).test with busy := true, visited := 0, missing := [], edges := [], lastAt := none, pulse := none } }) ∧
      ((s.port p).arm.armed = true ∨ (s.port p).test.busy = true ∨ (s.port p).head.accepted = false ∨ (s.port p).test.count = 0 →
        s.portOnly p t ∧ t.port p = { s.port p with pdp := { (s.port p).pdp with cerr := true } })) ∧
  (∀ (p : Fin 4) (fireAt : Time48) (samples : List SenseSample) (ok : Bool) (s : State), s.clocked = true → (s.port p).test.busy = true →
    State.testOnTime (s.port p).test fireAt = true →
    let x := s.testPulse p fireAt samples
    s.testHealthy p x samples = some ok → (∀ b, s.testByte p x.nozzle = some b → b.2.corrected = [] ∧ b.2.uncorrectable = []) →
    ((s.port p).test.visited + 1 ≠ (s.port p).test.count →
      completes (.healthTestCycle p fireAt samples) s fun t =>
        let q := s.port p
        let k := t.port p
        k = { q with fire := s.testFire p fireAt samples, test := k.test, head := k.head } ∧ (∀ o, o ≠ p → t.port o = s.port o) ∧
        k.test = { q.test with visited := q.test.visited + 1, edges := [], lastAt := some fireAt, pulse := k.test.pulse,
                               missing := if ok then q.test.missing else q.test.missing ++ [q.test.first + q.test.visited] } ∧
        (s.flt.safe = false → k.test.pulse = some x) ∧
        (q.test.op = 1 → k.head = q.head ∧ s.portOnly p t) ∧
        (q.test.op = 2 → s.testCode p x.nozzle ≠ 0 → s.flt.safe = false → k.head.drops = min (2 ^ 48 - 1) (q.head.drops + 1))) ∧
    ((s.port p).test.visited + 1 = (s.port p).test.count → (s.port p).test.op = 1 → (s.readMap p).corrected = [] →
      (s.readMap p).uncorrectable = [] →
      completes (.healthTestCycle p fireAt samples) s fun t =>
        let copy := (s.prof p).region + 0x800 * (!(s.port p).pdp.mapset).toNat
        let k := t.port p
        k.test.busy = false ∧ k.test.done = true ∧ k.test.missingReg = k.test.missing.length ∧ k.head = (s.port p).head ∧
          k.pdp = (s.port p).pdp ∧ k.arm = (s.port p).arm ∧ (∀ q, q ≠ p → t.port q = s.port q) ∧
          (∀ a, a < copy ∨ copy + ceilDiv (s.prof p).nozzles 8 ≤ a → t.mem.readByte 0 a = s.mem.readByte 0 a) ∧
          t.mem = { s.mem with lineStore := t.mem.lineStore, remap := t.mem.remap, scrub := { s.mem.scrub with back := t.mem.scrub.back } })) ∧
  (∀ (p : Fin 4) (x : TestPulse) (samples : List SenseSample) (ok : Bool) (s : State), s.continuityHealthy p x samples = some ok →
    let on := s.senseOver p samples (x.rise, x.width)
    let base := s.senseOver p samples (x.rise - BitVec.ofNat 48 (800 + x.width), x.width)
    0 < on.2 ∧ 0 < base.2 ∧
      (ok = true ↔ (s.port p).test.ctMin * (base.2 * on.2) + on.1 * base.2 ≤ base.1 * on.2 ∧
        base.1 * on.2 ≤ (s.port p).test.ctMax * (base.2 * on.2) + on.1 * base.2)) ∧
  (∀ (p : Fin 4) (s : State), s.clocked = true → s.hasPort p = true →
    completes (.healthTestAbort p) s fun t => s.portOnly p t ∧
      ((s.port p).test.busy = true →
        t.port p = { s.port p with test := { (s.port p).test with busy := false, aborted := true } }) ∧
      ((s.port p).test.busy = false → t = s))
/-- WATCHDOG_CUT of a strobe of a port with a profile that has risen and been active longer than STB_MAX + 60 ns, where 0x30 does not also
reset the block: the strobe's CUT bit is set and no other cleared, the port is not armed, with DISCAUSE 1 where it was, and 0x30 is raised;
other ports and all of the fabric, axes, slots, nodes and the ladder are as they were. One active STB_MAX + 60 ns or less is never cut.
HEAD_TEMP_PUBLISH on a clocked port with a profile and a calibrated converter: TSCODE is the mean of the 64 codes
(to nearest, log entry 141) and T = (TSCODE − TSOFS) · TSGAIN / 4096, rounded down and
clamped; a code below 16 or above 4079 or TSGAIN 0 makes the temperature invalid and the head counts as shut down. A valid T at TWARN sets
the warning and one more than THYST below TWARN ends it; at TSHUT the head is shut down and throttled; a shutdown ends, with the throttle,
only below TTHROT − THYST, after an invalid temperature only with 100 such milliseconds. Sprigs, axes, slots and nodes stay. -/
def Obligations.WatchdogAndHeadTemperature : Prop :=
  (∀ (p k : Fin 4) (active : Nat) (s : State), active ≤ (s.prof p).stbMax + 60 → completes (.watchdogCut p k active) s (· = s)) ∧
  (∀ (p k : Fin 4) (active : Nat) (rise : Time48) (s : State), (s.profile p).isSome = true → k.val < (s.prof p).strobes →
     (s.prof p).stbMax + 60 < active → (s.port p).roseAt (s.prof p) s.times.fab k.val = some rise →
     (s.clocked = false ∨ 4 * active ≤ 5 * since s.times.fab rise) → (s.flt.reactOf 0x30).blkrst = false →
     completes (.watchdogCut p k active) s fun t =>
       (t.port p).fire.cut = (s.port p).fire.cut ||| (1#4 <<< k.val) ∧ (t.port p).arm.armed = false ∧
       ((s.port p).arm.armed = true → (t.port p).arm.discause = 1 ∧ (t.port p).seam.state = 0) ∧
       ((s.port p).arm.armed = false → (t.port p).arm = (s.port p).arm) ∧
       s.reports t .data 0x30 4 p.val ∧ (∀ q, q ≠ p → t.port q = s.port q) ∧
       t = { s with ports := t.ports, links := t.links, dma := t.dma }) ∧
  (∀ (p : Fin 4) (ts : Vector (BitVec 12) 64) (vhs : BitVec 12) (s : State), s.clocked = true → (s.profile p).isSome = true →
     s.senseFree p = true →
     completes (.headTempPublish p ts vhs) s fun t =>
       let code := s.tsMean p ts
       let r := s.prof p
       let h := (s.port p).temp
       let k := (t.port p).temp
       let ok := h.tsgain ≠ 0 ∧ 16 ≤ code ∧ code ≤ 4079
       let cool := k.t < 16 * ((r.tThrot : Int) - r.tHyst)
       k.tscode = code ∧ (k.valid = true ↔ ok) ∧ k.tsofs = h.tsofs ∧ k.tsgain = h.tsgain ∧
       (h.tsgain ≠ 0 → k.t = max (-32768) (min 32767 (((code : Int) - h.tsofs) * h.tsgain / 4096))) ∧
       (¬ok → k.shut = true) ∧
       (ok → (16 * (r.tWarn : Int) ≤ k.t → k.warn = true) ∧ (k.t < 16 * ((r.tWarn : Int) - r.tHyst) → k.warn = false) ∧
         (16 * (r.tShut : Int) ≤ k.t → h.shut = false → k.shut = true ∧ k.throt = true) ∧
         (k.t < 16 * (r.tShut : Int) → h.shut = false → k.shut = false) ∧
         (h.shut = true → ¬cool → k.shut = true) ∧
         (h.shut = true → cool → (h.byInvalid = false ∨ 100 ≤ h.validMs + 1) → k.shut = false ∧ k.throt = false) ∧
         (h.shut = true → h.byInvalid = true → h.validMs + 1 < 100 → k.shut = true)) ∧
       (∀ q, q ≠ p → (t.port q).temp = (s.port q).temp ∧ (t.port q).arm = (s.port q).arm) ∧
       t = { s with ports := t.ports, links := t.links, dma := t.dma, cal := { s.cal with senseAt := t.cal.senseAt }, free := t.free })

/-- SEAM_PAUSE on an armed, clocked, present port without a seam: PAUSE is set, STATE is 1 and the stop line is F in page mode. SEAM_RELEASE
clears PAUSE, REV and SOS. Arming, firing and data of every port, and everything but ports, their messages and the free values, stay.
CAP_CHANGE of a port whose cap differs from the one last carried, on an axis with a seam slot: the port notes the cap carried; the
generator of the seam slot plans anew with v_lim, which no port of the axis exceeds at v_r · cap / 100 and which one of them equals. Of that
slot nothing else changes, of the port nothing else, and nothing else at all. -/
def Obligations.SeamPauseReleaseAndCap : Prop :=
  ((∀ (p : Fin 4) (s : State), s.clocked = true → s.hasPort p = true → (s.profile p).isSome = true → (s.port p).arm.armed = true →
     (s.port p).seam.state = 0 →
     completes (.seamPause p) s fun t =>
       (t.port p).seam.pause = true ∧ (t.port p).seam.state = 1 ∧ (t.port p).seam.count = min 0xFFFF ((s.port p).seam.count + 1) ∧
       ((s.prof p).scan = false → (t.port p).seam.line = (s.port p).pdp.f ∧
         (t.port p).seam.stopFrom = some (s.port p).nextLine) ∧
       t = { s with ports := t.ports, links := t.links, free := t.free } ∧ ∀ q, t.port q = { s.port q with seam := (t.port q).seam }) ∧
   (∀ (p : Fin 4) (s : State), s.clocked = true → s.hasPort p = true →
     completes (.seamRelease p) s fun t =>
       (t.port p).seam.pause = false ∧ (t.port p).seam.rev = false ∧ (t.port p).seam.sos = false ∧
       (t.port p).seam.supply = (s.port p).seam.supply ∧ (t.port p).seam.shut = (s.port p).seam.shut ∧
       (t.port p).seam.state = (s.port p).seam.state ∧ (t.port p).arm = (s.port p).arm ∧ (t.port p).fire = (s.port p).fire ∧
       t = { s with ports := t.ports, links := t.links } ∧ ∀ q, q ≠ p → t.port q = s.port q)) ∧
  (∀ (p : Fin 4) (n : Fin 8) (x : Fin 4 × Fin 24) (s : State), s.clocked = true → s.portAxis p = some n → s.seamSlot n = some x →
     (s.port p).fire.capSent ≠ s.cap p →
     completes (.capChange p) s fun t =>
       let limit (k : Fin 4) : Nat := (s.prof k).fireMax * (s.prof k).linePitch * s.cap k * 65536 / 6400
       t = { s with ports := t.ports, cores := t.cores } ∧ (∀ q, q ≠ p → t.port q = s.port q) ∧
       t.port p = { s.port p with fire := { (s.port p).fire with capSent := s.cap p } } ∧
       (∃ v, t.slot x.1 x.2 = { s.slot x.1 x.2 with gen := { (s.slot x.1 x.2).gen with vlim := some v, replan := true } } ∧
         (∀ k ∈ s.axisPorts n, v ≤ limit k) ∧ ∃ k ∈ s.axisPorts n, v = limit k) ∧
       (∀ c, t.core c = { s.core c with slots := (t.core c).slots }) ∧ ∀ c i, (c, i) ≠ x → t.slot c i = s.slot c i)

/-- ARM of a present, clocked, disarmed port: with no active image or no profile REASON is 0x01, else while activating or in the safe state
0x02, else with a CUT bit 0x03, else while testing 0x04, and the port stays disarmed; where no reason of the table applies it is armed with
F −1, no line fired or assembled, no valid tag and no seam, and a live arming ends every injection. An ARM of an armed port changes nothing.
DISARM of an armed port only marks it; DISARM_COMPLETE, with no strobe of a committed line left, ends the arming with DISCAUSE 0. -/
def Obligations.ArmAndDisarm : Prop :=
  (∀ (p : Fin 4) (dry : Bool) (s : State), s.clocked = true → s.hasPort p = true → (s.port p).arm.armed = false →
    completes (.arm p dry) s fun t =>
      let noImage := s.top.activeValid = false ∨ s.profile p = none
      let busy := s.top.state = .activating ∨ s.flt.safe = true
      let refused (why : Nat) : Prop := t = { s with ports := t.ports } ∧ (∀ q, q ≠ p → t.port q = s.port q) ∧
        t.port p = { s.port p with arm := { (s.port p).arm with dryrunReg := dry, refused := true, reason := why } }
      (noImage → refused 0x01) ∧ (¬noImage → busy → refused 0x02) ∧
      (¬noImage → ¬busy → (s.port p).fire.cut ≠ 0 → refused 0x03) ∧
      (¬noImage → ¬busy → (s.port p).fire.cut = 0 → (s.port p).test.busy = true → refused 0x04) ∧
      (∀ why, s.armRefusal p dry = some why → refused why) ∧
      (s.armRefusal p dry = none →
        (t.port p).arm.armed = true ∧ (t.port p).arm.dryrun = dry ∧ (t.port p).arm.disarming = false ∧ (t.port p).pdp.f = -1 ∧
        (t.port p).pdp.fired = -1 ∧ (t.port p).pdp.assembled = -1 ∧ (t.port p).pdp.valid = [] ∧ (t.port p).pdp.asm = [] ∧
        (t.port p).seam.state = 0 ∧ (t.port p).fire.committed = none ∧ (t.port p).sos.held = [] ∧ (t.port p).head = (s.port p).head ∧
        (∀ q, q ≠ p → t.port q = s.port q) ∧
        (dry = true → t = { s with ports := t.ports, quiesce := t.quiesce, links := t.links }) ∧
        (dry = false → t.links.inj.active = false ∧ (∀ n, (t.tlk n).inj.active = false) ∧
          t = { s with ports := t.ports, quiesce := t.quiesce, links := t.links, tlks := t.tlks }))) ∧
  (∀ (p : Fin 4) (dry : Bool) (s : State), s.clocked = true → s.hasPort p = true → (s.port p).arm.armed = true →
    completes (.arm p dry) s fun t => t = s) ∧
  (∀ (p : Fin 4) (s : State), s.clocked = true → s.hasPort p = true → (s.port p).arm.armed = true →
    completes (.disarm p) s fun t => s.portOnly p t ∧ t.port p = { s.port p with arm := { (s.port p).arm with disarming := true } }) ∧
  (∀ (p : Fin 4) (s : State), (s.port p).arm.armed = true → (s.port p).arm.disarming = true → s.strobesOver p = true →
    completes (.disarmComplete p) s fun t =>
      (t.port p).arm = { (s.port p).arm with armed := false, disarming := false, discause := 0 } ∧ (t.port p).pdp.valid = [] ∧
      (t.port p).pdp.asm = [] ∧ (t.port p).pdp.pend = none ∧ (t.port p).seam.state = 0 ∧ (t.port p).fire.committed = none ∧
      (∀ q, q ≠ p → t.port q = s.port q) ∧
      t = { s with ports := t.ports, links := t.links, dma := { s.dma with chans := t.dma.chans, engines := t.dma.engines } })

/-- SUPPLY_WARNING where the monitor watches and no warning is in force: WARN is set, DIPS counts it, 0x01 is raised; at L0 and L1 every
armed port with a profile carries the SUPPLY cause in a seam and an OTP operation ends as aborted with reason 0x20, and deeper no port
changes. A new dip while it is in force stops the clear-off time. SUPPLY_RECOVER starts the clear-off time; SUPPLY_WARNING_CLEAR after it clears WARN and the SUPPLY cause of every port. DIPS_READ
returns MGT_SUPSTAT and clears DIPS. -/
def Obligations.SupplyWarningLifecycle : Prop :=
  (∀ s : State, s.supplyWatched = true → s.sys.warn = false →
    completes .supplyWarning s fun t =>
      t.sys = { s.sys with warn := true, recover := false, dips := min 0xFF (s.sys.dips + 1), resetOwed := t.sys.resetOwed } ∧
      t.flt = (s.raise .management 0x01 1 0).flt ∧
      (s.ladder.rung ≤ 1 → (∀ p, (s.port p).arm.armed = true → (s.profile p).isSome = true →
          (t.port p).seam.supply = true ∧ (t.port p).seam.state ≠ 0 ∧ ∃ l, (t.port p).seam.stopFrom = some l ∧ l ≤ (s.port p).nextLine) ∧
        t.otp.op = none ∧ (s.otp.op ≠ none → t.otp.aborted = true ∧ t.otp.reason = 0x20 ∧ t.otp.done = true)) ∧
      (1 < s.ladder.rung → t.ports = s.ports ∧ t.otp = s.otp) ∧
      (∀ q, t.port q = { s.port q with seam := (t.port q).seam }) ∧
      t = { s with sys := t.sys, flt := t.flt, host := t.host, thm := t.thm, ports := t.ports, links := t.links, otp := t.otp,
                   free := t.free }) ∧
  (∀ s : State, s.supplyWatched = true → s.sys.warn = true →
    completes .supplyWarning s fun t => t = { s with sys := { s.sys with recover := false } }) ∧
  (∀ s : State, s.supplyWatched = true → s.sys.warn = true →
    completes .supplyRecover s fun t => t = { s with sys := { s.sys with recover := true } }) ∧
  (∀ s : State, s.supplyWatched = true → s.sys.warn = true → s.sys.recover = true →
    completes .supplyWarningClear s fun t => t.sys = { s.sys with warn := false, recover := false } ∧
      (∀ p, (t.port p).seam.supply = false ∧ (t.port p).arm = (s.port p).arm ∧ (t.port p).fire = (s.port p).fire) ∧
      t = { s with sys := t.sys, ports := t.ports, links := t.links }) ∧
  (∀ s : State, s.mgmtServed = true →
    completes .dipsRead s fun t =>
      t = { s with sys := { s.sys with dips := 0 }, host := { s.host with rdata := t.host.rdata } } ∧
      ∃ w : Word, t.host.rdata = [w] ∧ w.getLsbD 31 = s.sys.warn ∧ (w.extractLsb' 16 8).toNat = s.sys.dips % 256)
/-- A plane whose link has delivered a TYPE 0x30 of the exchange in progress, at QUIESCENCE_REQUEST, takes the message and answers: the control
plane confirms exactly where no slot runs, else refuses with reason 3; the data plane refuses with reason 2 where a port is armed or under
test, confirms where none is and the descent does not go to L5 or deeper, and waits with its answer for a usage commit where it does. The
answer is a message on the plane's link: TYPE 0x31 or 0x32.
QUIESCENCE_CONFIRM records a confirmation that has arrived; QUIESCENCE_REFUSE in a descent at L1 abandons it with the reason that stands first
of those that hold (log entry 134), and in an activation ends the exchange, leaves the loader idle and raises 0x64. Each takes its message. Without such a
message none of the three changes anything. -/
def Obligations.QuiescenceExchange : Prop :=
  let answers (s t : State) (d : Fin 6) (type : BitVec 8) : Prop :=
    s.links.inj.active = false → ∃ m, msgType m = type ∧ t.links.dirs[d.val].wire = s.links.dirs[d.val].wire ++ [m]
  (∀ (m : BitVec 96) (s : State), s.clocked = true → s.arrived 3 0x30 (fun _ => true) = some m → s.quiesce.control = .asked →
    completes (.quiescenceRequest .control) s fun t =>
      t = { s with quiesce := { s.quiesce with control := t.quiesce.control }, links := t.links } ∧
      t.links.dirs[3].accepted = s.links.dirs[3].accepted.erase m ∧
      ((∀ c i, (s.slot c i).state ≠ .running) → t.quiesce.control = .confirmed ∧ answers s t 2 0x31) ∧
      ((∃ c i, (s.slot c i).state = .running) → t.quiesce.control = .refused 3 ∧ answers s t 2 0x32)) ∧
  (∀ (m : BitVec 96) (s : State), s.clocked = true → s.arrived 5 0x30 (fun _ => true) = some m → s.quiesce.data = .asked →
    completes (.quiescenceRequest .data) s fun t =>
      t.links.dirs[5].accepted = s.links.dirs[5].accepted.erase m ∧
      ((∃ p, (s.port p).arm.armed = true ∨ (s.port p).test.busy = true) →
        t = { s with quiesce := { s.quiesce with data := .refused 2 }, links := t.links } ∧ answers s t 4 0x32) ∧
      ((∀ p, (s.port p).arm.armed = false ∧ (s.port p).test.busy = false) → (s.quiesce.purpose ≠ .descent ∨ s.ladder.target < 5) →
        t = { s with quiesce := { s.quiesce with data := .confirmed }, links := t.links } ∧ answers s t 4 0x31) ∧
      ((∀ p, (s.port p).arm.armed = false ∧ (s.port p).test.busy = false) → s.quiesce.purpose = .descent → 5 ≤ s.ladder.target →
        (∃ p, (s.port p).head.usage.isSome = true) → t.quiesce.data = .waiting)) ∧
  (∀ (m : BitVec 96) (s : State), s.running = true →
    (s.arrived 4 0x31 (fun _ => true) = some m → s.quiesce.purpose = .descent → s.quiesce.data = .confirmed →
      completes (.quiescenceConfirm .data) s fun t => t = { s.takeMessage 4 m with quiesce := { s.quiesce with data := .recorded } }) ∧
    (s.arrived 2 0x31 (fun _ => true) = some m → s.quiesce.purpose = .descent → s.quiesce.control = .confirmed →
      completes (.quiescenceConfirm .control) s fun t =>
        t = { s.takeMessage 2 m with quiesce := { s.quiesce with control := .recorded } })) ∧
  (∀ (m : BitVec 96) (s : State), s.running = true → s.quiesce.purpose = .descent → s.ladder.rung = 1 →
    let abandons (d : Fin 6) (reason : Nat) (t : State) : Prop :=
      t.quiesce = {} ∧ t.ladder.reason = reason ∧ t.ladder.cerr = true ∧ t.ladder.rung = 1 ∧
      t.ladder.phase = .exit 6 ∧ t.ladder.abandoned = true ∧ t.ladder.done = s.ladder.done ∧
      t = { s.takeMessage d m with quiesce := {}, ladder := t.ladder, ports := t.ports } ∧
      ∀ p, t.port p = { s.port p with head := { (s.port p).head with descentWait := false } }
    (s.arrived 4 0x32 (fun _ => true) = some m → s.quiesce.data = .refused 2 → completes (.quiescenceRefuse .data) s (abandons 4 2)) ∧
    (s.arrived 2 0x32 (fun _ => true) = some m → s.quiesce.control = .refused 3 →
      (s.dataQuiet = true → completes (.quiescenceRefuse .control) s (abandons 2 3)) ∧
      (s.dataQuiet = false → completes (.quiescenceRefuse .control) s (abandons 2 2)))) ∧
  (∀ (why : Nat) (m : BitVec 96) (s : State), s.running = true → s.quiesce.purpose = .activation →
    s.arrived 2 0x32 (fun _ => true) = some m → s.quiesce.control = .refused why →
    completes (.quiescenceRefuse .control) s fun t => t.quiesce = {} ∧ t.top.state = .idle ∧ t.top.actRefused = true ∧
      t.top.image = s.top.image ∧ t.top.activeValid = s.top.activeValid ∧ t.flt = (s.raise .management 0x64 11 0).flt ∧
      t.links = (s.takeMessage 2 m).links ∧
      t.fab = s.fab ∧ t.axes = s.axes ∧ t.cores = s.cores ∧ t.ports = s.ports ∧ t.mem = s.mem ∧ t.ladder = s.ladder) ∧
  (∀ (plane : Plane) (s : State),
    (s.arrived (fromManagement plane) 0x30 (fun _ => true) = none → completes (.quiescenceRequest plane) s (· = s)) ∧
    (s.arrived (toManagement plane) 0x31 (fun _ => true) = none → completes (.quiescenceConfirm plane) s (· = s)) ∧
    (s.arrived (toManagement plane) 0x32 (fun _ => true) = none → completes (.quiescenceRefuse plane) s (· = s)))

/-- LADDER_GO at L0 to L6 stores TARGET. While a transition is in progress it sets CERR alone; for the rung the part is at it sets CERR with
reason 1; for a deeper rung a descent starts; for a shallower one from L1 the exit starts at step G, and from L2 to L6 at the first step of
that rung, recorded in WAKESRC as the ladder command. Only the ladder changes. -/
def Obligations.LadderGoStarts : Prop :=
  ∀ (v : BitVec 3) (s : State), s.running = true → s.ladder.rung ≤ 6 →
    completes (.ladderGo v) s fun t =>
      let l := s.ladder
      t = { s with ladder := t.ladder } ∧ t.ladder.targetReg = v.toNat ∧ t.ladder.rung = l.rung ∧
      (l.phase ≠ .idle → t.ladder = { l with targetReg := v.toNat, cerr := true }) ∧
      (l.phase = .idle → v.toNat = l.rung → t.ladder = { l with targetReg := v.toNat, cerr := true, reason := 1 }) ∧
      (l.phase = .idle → l.rung < v.toNat → t.ladder.phase = .descend ∧ t.ladder.target = v.toNat) ∧
      (l.phase = .idle → v.toNat < l.rung → t.ladder.target = 0 ∧
        (l.rung = 1 → t.ladder.phase = .exit 6) ∧ (l.rung = 2 → t.ladder.phase = .exit 5) ∧ (l.rung = 3 → t.ladder.phase = .exit 4) ∧
        (l.rung = 4 → t.ladder.phase = .exit 3) ∧ (5 ≤ l.rung → t.ladder.phase = .exit 1) ∧ (2 ≤ l.rung → t.ladder.wakeSrc = 0x40))

/-- RUNG_ENTRY in a descent. To L1, which waits for an activation in progress, nothing but the ladder changes. At L1 it first asks both planes
for quiescence, and then waits without both recorded answers; with a DMA channel not quiet the descent is abandoned, with reason 4 where both
planes are quiet; otherwise L2 is entered: no sprig keeps a pending set, is active (log entry 135) or loses its count, axes unsettle,
running Tohevik ports suspend. At L2 it waits for the link; then at L3 banks are retained or off and the PLL stops. L4 changes the ladder
alone. L5 resets both planes and the structure and keeps keep RAM, records and management calibration; L6 keeps keep RAM, field sets and the
remap table; L7 keeps no memory. -/
def Obligations.RungEntryEffects : Prop :=
  ∀ s : State, s.running = true → s.ladder.phase = .descend → s.ladder.rung < s.ladder.target →
    completes .rungEntry s fun t =>
      let entered (r : Nat) : Prop := t.ladder.rung = r ∧ t.ladder.deepest = r ∧
        (r = s.ladder.target → t.ladder.phase = .idle ∧ t.ladder.done = true) ∧ (r ≠ s.ladder.target → t.ladder.phase = .descend)
      (s.ladder.rung = 0 → s.top.state = .activating → t = s) ∧
      (s.ladder.rung = 0 → s.top.state ≠ .activating → entered 1 ∧ t = { s with ladder := t.ladder }) ∧
      (s.ladder.rung = 1 → s.top.state ≠ .activating → s.quiesce.purpose = .none → t = { s with quiesce := t.quiesce, links := t.links } ∧
        t.quiesce.purpose = .descent ∧ t.quiesce.control = .asked ∧ t.quiesce.data = .asked ∧
        (s.links.inj.active = false → ∀ d : Fin 6, d = 3 ∨ d = 5 → ∃ m, msgType m = 0x30 ∧
          t.links.dirs[d.val].wire = s.links.dirs[d.val].wire ++ [m])) ∧
      (s.ladder.rung = 1 → s.mayIdle = false → (s.top.state = .activating ∨ s.quiesce.purpose ≠ .none) → t = s) ∧
      (s.ladder.rung = 1 → s.mayIdle = true → s.dmaQuiet = false → t.ladder.reason ≤ 4 ∧ t.ladder.cerr = true ∧ t.ladder.rung = 1 ∧
        (s.dataQuiet = true → s.controlQuiet = true → t.ladder.reason = 4) ∧ t.ladder.phase = .exit 6 ∧ t.fab = s.fab ∧ t.mem = s.mem) ∧
      (s.ladder.rung = 1 → s.mayIdle = true → s.dmaQuiet = true → entered 2 ∧
        (∀ n, (t.sprig n).pend = none ∧ (t.sprig n).active = false ∧ (t.sprig n).quad = (s.sprig n).quad ∧
          (t.sprig n).shadow = (s.sprig n).shadow) ∧
        (∀ n, (t.axis n).window = [] ∧ (t.axis n).hwm = (s.axis n).hwm ∧ (t.axis n).fwd = (s.axis n).fwd) ∧
        (∀ n, (s.tlk n).state = .running → (t.tlk n).state = .suspended ∧ (t.tlk n).sent.length = 8) ∧
        (∀ n, (s.tlk n).state ≠ .running → t.tlk n = s.tlk n) ∧ t.mem.tt.paused = true ∧ t.mem.scrub.busy = false ∧
        (s.mem.scrub.back = none → t.mem.lineStore = s.mem.lineStore ∧ t.flt = s.flt ∧ t.links = s.links) ∧ t.cores = s.cores ∧ t.dma = s.dma ∧
        t.top = s.top) ∧
      (s.ladder.rung = 2 → s.linkReady = false → t = s) ∧
      (s.ladder.rung = 2 → s.linkReady = true → entered 3 ∧ t.sys = { s.sys with pllLock := false } ∧
        (∀ b : Fin 16, t.mem.banks[b.val] ≠ .on ∧
          (t.mem.banks[b.val] = .retained ↔ s.mem.ret.getLsbD b.val = true ∧ s.mem.banks[b.val] = .on)) ∧
        (∀ a, s.mem.ret.getLsbD (a / 0x80000) = true → s.mem.banks[a / 0x80000]? = some .on →
          t.mem.lineStore.readByte a = s.mem.lineStore.readByte a) ∧
        t = { s with ladder := t.ladder, sys := t.sys, mem := { s.mem with lineStore := t.mem.lineStore, banks := t.mem.banks, ready := t.mem.ready } }) ∧
      (s.ladder.rung = 3 → entered 4 ∧ t = { s with ladder := t.ladder }) ∧
      (s.ladder.rung = 4 → entered 5 ∧ t.top.activeValid = false ∧ t.top.stagedValid = false ∧ t.top.image = {} ∧ t.thm.startup = true ∧
        (∀ p, t.port p = {}) ∧ (∀ n, t.axis n = {}) ∧ (∀ n, t.sprig n = {}) ∧ (∀ c, t.core c = {}) ∧ (∀ n, t.tlk n = {}) ∧ (∀ c, t.chan c = {}) ∧
        t.host.link = .down ∧ t.mem.keepMgmt = s.mem.keepMgmt ∧ t.mem.keepDma = s.mem.keepDma ∧ t.mem.usage = s.mem.usage ∧
        t.mem.lineStore = s.mem.lineStore ∧ t.flt.records = s.flt.records ∧ t.cal = s.cal ∧ t.otp = s.otp ∧ t.nodes = s.nodes) ∧
      (s.ladder.rung = 5 → entered 6 ∧ t.flt.records = [] ∧ t.mem.keepMgmt = s.mem.keepMgmt ∧ t.mem.keepDma = s.mem.keepDma ∧
        t.mem.remap = s.mem.remap ∧ t.mem.lineStore = {} ∧ (∀ b : Fin 16, t.mem.banks[b.val] = .off) ∧
        t.cal.fieldSets = s.cal.fieldSets ∧ t.otp.array = s.otp.array) ∧
      (s.ladder.rung = 6 → entered 7 ∧ t.mem = {} ∧ t.cal = {} ∧ t.otp.array = s.otp.array ∧ t.nodes = s.nodes)

/-- WAKE_EVENT and AON_TIMER_EXPIRY of a source enabled and acting at the rung, with the ladder at rest deeper than L0: the exit of that rung
starts and WAKESRC names the source alone; in an exit under way the source joins WAKESRC. One that is not enabled or does not act at the
rung changes nothing but the link a host that wakes over PCIe takes to L0. A change at a pin that no routed input of a sprig with WAKE shows wakes
nothing. LINK_WAIT_TIMEOUT at L2 abandons the descent, with reason 6, and leaves by step F. -/
def Obligations.WakeAndLinkTimeout : Prop :=
  (∀ (src : WakeSource) (s : State), s.running = true → (∀ n c, src = .sprig n c → s.wakeSprig n c = true) → src ≠ .pcie →
    completes (.wakeEvent src) s fun t =>
      let bit : BitVec 7 := 1#7 <<< Ladder.wakeBit src
      let acts := s.ladder.wakeActs src = true ∧ s.ladder.wakeEnabled src = true
      t.fab = { s.fab with pads := t.fab.pads } ∧ ((∀ n c, src ≠ .sprig n c) → t.fab = s.fab) ∧
      (¬acts → t = { s with fab := t.fab }) ∧
      (acts → s.ladder.phase = .idle → 1 ≤ s.ladder.rung → t = { s with fab := t.fab, ladder := t.ladder } ∧ t.ladder.rung = s.ladder.rung ∧
        t.ladder.phase = .exit (Ladder.firstStep s.ladder.rung) ∧ t.ladder.wakeSrc = bit ∧ t.ladder.target = 0 ∧
        t.ladder.wakeEn = s.ladder.wakeEn) ∧
      (∀ k, acts → s.ladder.phase = .exit k →
        t = { s with fab := t.fab, ladder := { s.ladder with wakeSrc := s.ladder.wakeSrc ||| bit } })) ∧
  (∀ (n : Fin 96) (c : PinChange) (s : State), s.wakeSprig n c = false → completes (.wakeEvent (.sprig n c)) s (· = s)) ∧
  (∀ s : State, s.running = true → s.host.link ≠ .down → s.ladder.rung = 3 ∨ s.ladder.rung = 4 → s.ladder.phase = .idle →
    s.ladder.wakeEn.getLsbD 2 = true →
    completes (.wakeEvent .pcie) s fun t => t.host = { s.host with link := .l0 } ∧ t.ladder.wakeSrc = 0x04 ∧
      t.ladder.phase = .exit (Ladder.firstStep s.ladder.rung) ∧ t = { s with ladder := t.ladder, host := t.host }) ∧
  (∀ s : State, s.running = true → 4 ≤ s.ladder.rung → s.ladder.rung ≤ 6 → s.ladder.aonTimer ≠ 0 → s.ladder.wakeEn.getLsbD 4 = true →
    s.ladder.phase = .idle →
    completes .aonTimerExpiry s fun t => t = { s with ladder := t.ladder } ∧ t.ladder.wakeSrc = 0x10 ∧
      t.ladder.phase = .exit (Ladder.firstStep s.ladder.rung)) ∧
  (∀ s : State, s.linkWait = true → s.quiesce.purpose ≠ .activation →
    completes .linkWaitTimeout s fun t => (s.quiesce.purpose = .none → t.ladder.reason = 6) ∧ t.ladder.cerr = true ∧ t.ladder.phase = .exit 5 ∧ t.ladder.abandoned = true ∧
      t.ladder.rung = 2 ∧ t.fab = s.fab ∧ t.mem = s.mem ∧ t.cores = s.cores ∧ t.tlks = s.tlks ∧ t.dma = s.dma ∧ t.host = s.host)

/-- EXIT_STEP while the part runs. Step E waits, unchanged, for a reference that is not there, and stops for good at L3 where the fast clocks
are lost; otherwise it locks the PLL at L2. Step F at L1 starts the fabric and loop times of the domains that run at 0 and takes every suspended
Tohevik port back to running, or to SAFE in the safe state; the message links are watched from that moment on. Step G ends the exit at L0 with banks as MEM_BANKPWR and, where the exit did not
end an abandoned descent, DONE set. Records, image and axes stay as they are.
CLOCK_LOSS of a watched clock: its MGT_CLKSTAT bit is set and no other cleared. At L0 to L3 source 0x07 is raised, so the safe state is in
force; deeper its raising is owed. A lost reference or PLL at L0 to L3 leaves the part at L3, stuck, without PLL; a lost crystal puts AON on
its backup. -/
def Obligations.ExitStepsAndClockLoss : Prop :=
  ((∀ s : State, s.running = true → s.ladder.phase = .exit 4 → s.host.i2cHold = .none →
     completes .exitStep s fun t =>
       (s.sys.fastLost = true → t = { s with ladder := { s.ladder with phase := .stuck } }) ∧
       (s.sys.fastLost = false → s.referencePresent = false → t = s) ∧
       (s.sys.fastLost = false → s.referencePresent = true → t.sys = { s.sys with pllLock := true } ∧ t.ladder.rung = 2 ∧
         t.ladder.phase = .exit 5 ∧ t = { s with sys := t.sys, ladder := t.ladder })) ∧
   (∀ s : State, s.running = true → s.ladder.phase = .exit 5 →
     completes .exitStep s fun t => t.ladder = { s.ladder with rung := 1, phase := .exit 6 } ∧
       (s.top.image.domain 1 = true → t.times.fab = 0) ∧ (s.top.image.domain 0 = true → t.times.loop = 0) ∧
       t.times.dev = s.times.dev ∧
       (∀ n, (s.tlk n).state = .suspended → t.tlk n = { s.tlk n with state := if s.flt.safe then .safe else .running }) ∧
       (∀ n, (s.tlk n).state ≠ .suspended → t.tlk n = s.tlk n) ∧ t.cal.started = false ∧
       (∀ d : Fin 6, t.links.dirs[d.val] = { s.links.dirs[d.val] with heard := s.times.dev, sentAt := s.times.dev }) ∧
       (s.top.image.domain 1 = false → t.fab = s.fab) ∧
       (∀ n, (t.sprig n).quad = (s.sprig n).quad ∧ (t.sprig n).active = (s.sprig n).active ∧ (t.sprig n).act = (s.sprig n).act) ∧
       t = { s with ladder := t.ladder, times := t.times, tlks := t.tlks, cal := t.cal, links := t.links, fab := t.fab }) ∧
   (∀ s : State, s.running = true → s.ladder.phase = .exit 6 → s.host.i2cHold = .none →
     completes .exitStep s fun t => t.ladder.rung = 0 ∧ t.ladder.phase = .idle ∧
       t.ladder.done = (s.ladder.done || !s.ladder.abandoned) ∧ t.ladder.abandoned = false ∧ t.mem.tt.paused = false ∧
       (∀ b : Fin 16, t.mem.banks[b.val] = if s.mem.on.getLsbD b.val then .on else .off) ∧
       t = { s with ladder := t.ladder, mem := t.mem })) ∧
  (∀ (clk : WatchedClock) (s : State), s.sys.phase ≠ .inReset → s.watched clk = true →
     (s.host.i2cHold = .none ∨ (s.ladder.phase ≠ .stuck ∧ (clk = .x32 ∨ clk = .mgmtRc ∨ 3 < s.ladder.rung))) →
     completes (.clockLoss clk) s fun t =>
       t.sys.clkLoss = s.sys.clkLoss ||| (1#4 <<< (lossBit clk - 8)) ∧
       (s.ladder.rung ≤ 3 → t.flt.safe = true ∧ t.flt.clockOrHeartbeat = true ∧ t.regime = 3) ∧
       (3 < s.ladder.rung → t.flt = s.flt ∧ t.sys.lossOwed = s.sys.lossOwed ++ [lossBit clk]) ∧
       (clk = .x32 → t.sys.x32ok = false ∧ t.sys.x32backup = true) ∧
       (clk = .reference ∨ clk = .pll → t.sys.fastLost = true ∧
         (s.ladder.rung ≤ 3 → t.sys.pllLock = false ∧ t.ladder.rung = 3 ∧ t.ladder.phase = .stuck)) ∧
       t.fab = s.fab ∧ t.axes = s.axes ∧ t.cores = s.cores ∧ t.tlks = s.tlks ∧ t.nodes = s.nodes ∧ t.dma = s.dma ∧ t.otp = s.otp ∧
         t.top = s.top ∧ t.links = s.links ∧ ∀ p, (t.port p).arm = (s.port p).arm)

/-- For a present, clocked sprig. A commit in the safe state, of an upper sprig of a gang or of an unused one changes nothing. Otherwise COMMIT
of a mode with a shadow makes the whole shadow the pending set where it passes the mode's checks and else only sets CERR; COMMIT_IDLE of an
input-only mode only sets CERR and of another does as COMMIT, with the set marked idle. DISCARD drops the pending set. GROUP_COMMIT commits
every present sprig its mask names as COMMIT would, and no other.
SPRIG_BOUNDARY of a clocked, used sprig outside a gang, whose outputs are not held. Where the cycle is no boundary of the sprig, or the outputs
are held at their safe levels, it changes nothing, and neither does it, in a mode other than quadrature, with neither a slot output nor a set
committed in an earlier cycle. Such a set marked idle leaves the sprig inactive; any other makes each register active as it was at the commit, and
toggles SET; an output mode that no slot owns becomes active. An applied LOAD of a quadrature sprig makes PRESET its count, and the HWM of the
axis it feeds. -/
def Obligations.SprigCommitsAndBoundary : Prop :=
  ((∀ (n : Fin 96) (idle : Bool) (s : State), s.clocked = true → s.hasSprig n = true →
     completes (if idle then .sprigCommitIdle n else .sprigCommit n) s fun t =>
       let g := s.sprig n
       let deaf := s.flt.safe = true ∨ g.gang ≠ 0 ∨ g.mode = 0
       (deaf → t = s) ∧
       (¬deaf → idle = true → inputOnly g.mode = true → s.sprigOnly n t ∧ t.sprig n = { g with cerr := true }) ∧
       (¬deaf → idle = false ∨ inputOnly g.mode = false → g.mode ≠ 7 → g.mode ≠ 0xA → s.sprigOnly n t ∧
         (s.commitOk n = false → t.sprig n = { g with cerr := true }) ∧
         (s.commitOk n = true → ∃ p, t.sprig n = { g with pend := some p } ∧ p.regs = g.shadow ∧ p.idle = idle))) ∧
   (∀ (n : Fin 96) (s : State), s.clocked = true → s.hasSprig n = true →
     completes (.sprigDiscard n) s fun t => s.sprigOnly n t ∧ t.sprig n = { s.sprig n with pend := none }) ∧
   (∀ s : State, s.clocked = true →
     completes .groupCommit s fun t => t = { s with fab := { s.fab with sprigs := t.fab.sprigs } } ∧
       ∀ n : Fin 96,
         let g := s.sprig n
         let named := (s.fab.gcmask[n.val / 32]).getLsbD (n.val % 32) = true ∧ s.hasSprig n = true ∧ s.flt.safe = false ∧ g.gang = 0 ∧
           g.mode ≠ 0 ∧ g.mode ≠ 7 ∧ g.mode ≠ 0xA
         (¬named → t.sprig n = g) ∧
         (named → s.commitOk n = false → t.sprig n = { g with cerr := true }) ∧
         (named → s.commitOk n = true → ∃ p, t.sprig n = { g with pend := some p } ∧ p.regs = g.shadow ∧ p.idle = false))) ∧
  ((∀ (n : Fin 96) (s : State), s.clocked = true → (s.sprig n).gang = 0 → (s.sprig n).mode ≠ 0 → (s.sprig n).mode ≠ 2 → (s.sprig n).mode ≠ 3 →
     (s.sprig n).loopOwned = false → (s.sprig n).slotOut = none →
     (s.outputsHeld = true ∨ (s.sprig n).atBoundary s.times.fab = false → completes (.sprigBoundary n) s (· = s)) ∧
     (s.outputsHeld = false → (s.sprig n).atBoundary s.times.fab = true → completes (.sprigBoundary n) s fun t =>
       let g := s.sprig n
       ((∀ p, g.pend = some p → p.cycle = s.times.fab) → t = s) ∧
       (∀ p, g.pend = some p → p.cycle ≠ s.times.fab → s.sprigOnly n t ∧ (t.sprig n).act = p.regs ∧ (t.sprig n).pend = none ∧ (t.sprig n).set = !g.set ∧
         (t.sprig n).shadow = g.shadow ∧ (t.sprig n).cerr = g.cerr ∧ (p.idle = true → (t.sprig n).active = false) ∧
         (p.idle = false → (t.sprig n).active = !inputOnly g.mode) ∧
         (p.idle = false → g.mode = 4 → -(16 * (g.p0 : Int)) ≤ (t.sprig n).step.rate ∧ (t.sprig n).step.rate ≤ 16 * g.p0)))) ∧
   (∀ (n : Fin 96) (a : Fin 8) (p : PendSet) (s : State), s.clocked = true → (s.sprig n).gang = 0 → (s.sprig n).mode = 3 →
     (s.sprig n).loopOwned = false → (s.sprig n).slotOut = none → (s.sprig n).pend = some p → p.idle = false → p.cycle ≠ s.times.fab →
     s.outputsHeld = false → (s.sprig n).p0 = a.val → (p.regs[1]).getLsbD 0 = true →
     completes (.sprigBoundary n) s fun t =>
       t = { s with fab := { s.fab with sprigs := t.fab.sprigs }, axes := t.axes } ∧ (∀ m, m ≠ n → t.sprig m = s.sprig m) ∧
       (t.sprig n).quad = { (s.sprig n).quad with count := p.regs[0] } ∧ (∀ m, m ≠ a → t.axis m = s.axis m) ∧
       (t.axis a).hwm = p.regs[0] ∧ (t.axis a).window = [] ∧ (t.axis a).exc = none ∧ (t.axis a).unset = true))

/-- For every period, duty, dead time and minimum pulse, aligned or centred: a period that starts with not both sides on and no edge left over
has both sides on at no step, and a side rises at a step only if the other has been off in every step of the period within DEADTIME before
it. -/
def Obligations.PwmDeadTime : Prop :=
  ∀ (w : Pwm) (now : Time48) (tp d dt mp : Nat) (centred : Bool), d ≤ tp → w.edges = [] → w.len = 0 →
    ¬(w.highAtStart = true ∧ w.lowAtStart = true) →
    let p := w.begin now tp d dt mp centred
    (∀ k, ¬(p.level true k = true ∧ p.level false k = true)) ∧
    (∀ e ∈ p.edges, e.level = true → ∀ k, k < e.step → e.step ≤ k + dt → p.level (!e.high) k = false)

/-- PWM_PERIOD_START of an active, clocked single PWM sprig with nothing pending, whose period has ended: the period counts, takes its length of four times PERIOD and
its duty, no more than the period. STEP_EMIT of a due step moves STEPS by one in the direction of the rate and the phase back by one step;
the last of a LIMIT stops the rate and sets DONE. PEAK_HOLD_SAMPLE of a new sample of the sprig's channel, with its code, in the peak phase goes to hold at
P0, and at P2 microseconds with a time-out counted. TACH_GATE_END of a gate that has lasted publishes its edge count and starts a new one. Each
touches its sprig alone, and nothing where its moment has not come: the period or the gate still runs, no step is due, no new sample
of that code is there (log entry 10). -/
def Obligations.SprigActions : Prop :=
  (∀ (n : Fin 96) (s : State), s.clocked = true → (s.sprig n).mode = 1 → (s.sprig n).gang = 0 → (s.sprig n).active = true →
    (s.sprig n).holdLvl = false → (s.sprig n).pend = none → (s.sprig n).slotOut = none →
    ((s.sprig n).atBoundary s.times.fab = false → completes (.pwmPeriodStart n) s (· = s)) ∧
    ((s.sprig n).atBoundary s.times.fab = true → completes (.pwmPeriodStart n) s fun t => s.sprigOnly n t ∧ t.sprig n = { s.sprig n with pwm := (t.sprig n).pwm } ∧
      (let tp := 4 * (((s.sprig n).act[1]).toNat % 65536)
       (t.sprig n).pwm.periods = (s.sprig n).pwm.periods + 1 ∧ (t.sprig n).pwm.len = tp ∧ (t.sprig n).pwm.start = s.times.fab ∧
         (t.sprig n).pwm.dApplied = min tp ((s.sprig n).act[0]).toNat))) ∧
  (∀ (n : Fin 96) (s : State), s.clocked = true → s.outputsHeld = false → (s.sprig n).stepDue s.times.fab = true →
    completes (.stepEmit n) s fun t => s.sprigOnly n t ∧
      (let g := s.sprig n
       let k := t.sprig n
       k = { g with step := k.step, event := k.event } ∧ k.step.phase = g.step.phase - 3200000000 ∧
         (0 < g.step.rate → k.step.steps = g.step.steps + 1) ∧ (g.step.rate < 0 → k.step.steps = g.step.steps - 1) ∧
         (g.act[1] = 0 → k.step.rate = g.step.rate ∧ k.event = g.event) ∧
         (g.act[1] ≠ 0 → g.step.remain ≤ 1 → k.step.rate = 0 ∧ k.event = g.event ||| 1) ∧
         (g.act[1] ≠ 0 → 1 < g.step.remain → k.step.rate = g.step.rate ∧ k.step.remain = g.step.remain - 1))) ∧
  (∀ (n : Fin 96) (s : State), (s.sprig n).stepDue s.times.fab = false ∨ s.outputsHeld = true → completes (.stepEmit n) s fun t => t = s) ∧
  (∀ (n : Fin 96) (code : BitVec 16) (s : State), s.sampleFresh n = false ∨ s.adcCode (s.sprig n).adc ≠ code.toNat →
    completes (.peakHoldSample n code) s (· = s)) ∧
  (∀ (n : Fin 96) (code : BitVec 16) (s : State), s.sampleFresh n = true → s.adcCode (s.sprig n).adc = code.toNat →
    (s.sprig n).gang = 0 → (s.sprig n).pend = none → (s.sprig n).slotOut = none → (s.sprig n).peak.phase = 1 → (s.sprig n).active = true →
    ((s.sprig n).act[0]).getLsbD 0 = true →
    completes (.peakHoldSample n code) s fun t => s.sprigOnly n t ∧
      (let g := s.sprig n
       let k := (t.sprig n).peak
       let code := code.toNat
       k.current = code ∧ k.peakSamples = g.peak.peakSamples + 1 ∧ k.seen = s.cal.samples ∧
         (g.p0 ≤ code → k.phase = 2 ∧ k.drive = false ∧ k.pto = g.peak.pto ∧ (t.sprig n).event = g.event) ∧
         (code < g.p0 → 5 * g.p2 ≤ 64 * (g.peak.peakSamples + 1) →
           k.phase = 2 ∧ k.drive = false ∧ k.pto = min 0xFFFF (g.peak.pto + 1) ∧ (t.sprig n).event = g.event ||| 1) ∧
         (code < g.p0 → 64 * (g.peak.peakSamples + 1) < 5 * g.p2 → k.phase = 1 ∧ k.drive = g.peak.drive ∧ k.pto = g.peak.pto))) ∧
  (∀ (n : Fin 96) (s : State), (s.sprig n).gateOver s.times.fab = false → completes (.tachGateEnd n) s (· = s)) ∧
  (∀ (n : Fin 96) (s : State), s.clocked = true → s.swapHold = false → (s.sprig n).mode = 8 → (s.sprig n).gateOver s.times.fab = true →
    (s.sprig n).pend = none → (s.sprig n).slotOut = none →
    completes (.tachGateEnd n) s fun t => s.sprigOnly n t ∧
      (let g := s.sprig n
       let k := (t.sprig n).tach
       k.n = g.tach.count ∧ k.count = 0 ∧ k.start = s.times.fab ∧ (t.sprig n).event = g.event ||| 1 ∧ (g.tach.count < 2 → k.tfreq = 0) ∧
         (∀ u, g.tach.last = some u → 2 ≤ g.tach.count → since u g.tach.first ≠ 0 →
           k.tfreq = BitVec.ofNat 32 (16 * (g.tach.count - 1) * 800000000 / since u g.tach.first)) ∧
         t.sprig n = { g with tach := k, event := g.event ||| 1 }))

/-- INPUT_EDGE_ACCEPT of a clocked sprig: the board's drives at its pins move at the instant given, and beside the pads nothing changes where the filters show no
other levels than the terminals have, or in the hold of an activation. A terminal's filter shows the pad's level, inverted where the route says
so, once it has stood for three samples, 10 ns (log entry 64), and before that the terminal's level. Quadrature without a change of Z: a change of both A and B
counts one illegal transition and not COUNT, a change of one counts up or down by one as A leads B or follows. Capture: a selected edge is
appended with the time of its transition to a queue that holds fewer than four, and is lost with the terminal's OVF when four are held. General
I/O: the EVENT bits of the terminals that changed are set. No other sprig changes, nor any slot, node, memory or management register. -/
def Obligations.InputEdgeByMode : Prop :=
  (∀ (n : Fin 96) (l : List (Fin 4 × Option Bool)) (at' : Time48) (s : State), s.clocked = true →
    let u := s.senseInputs n (l.map fun c => ⟨c.1, c.2, at'⟩)
    u = { s with fab := { s.fab with pads := u.fab.pads } } ∧
    (s.swapHold = true ∨ u.filteredLevels n = (s.sprig n).tin → completes (.inputEdgeAccept n l at') s (· = u))) ∧
  (∀ (n : Fin 96) (k : Fin 4) (r : RouteRec) (p : Pad) (s : State), s.inputRoute n k.val = some r → elem? s.fab.pads r.pin = some p →
    (8 ≤ since s.times.fab p.since → since s.times.fab p.since < 2 ^ 47 → (s.filteredLevels n).getLsbD k.val = (p.level != r.invert)) ∧
    (since s.times.fab p.since < 8 → (s.filteredLevels n).getLsbD k.val = (s.sprig n).tin.getLsbD k.val)) ∧
  (∀ (n : Fin 96) (l : List (Fin 4 × Option Bool)) (at' : Time48) (s : State), s.clocked = true → s.swapHold = false →
    let u := s.senseInputs n (l.map fun c => ⟨c.1, c.2, at'⟩)
    let v := u.filteredLevels n
    let g := s.sprig n
    v ≠ g.tin →
    (g.mode = 3 → v.getLsbD 2 = g.tin.getLsbD 2 →
      completes (.inputEdgeAccept n l at') s fun t =>
        let k := t.sprig n
        let a := v.getLsbD 0 != g.tin.getLsbD 0
        let b := v.getLsbD 1 != g.tin.getLsbD 1
        (a = true → b = true → k.quad = { g.quad with illegal := min 0xFFFF (g.quad.illegal + 1) }) ∧
        (a = true → b = false → k.quad = { g.quad with count := if v.getLsbD 0 != v.getLsbD 1 then g.quad.count + 1 else g.quad.count - 1 }) ∧
        (a = false → b = true → k.quad = { g.quad with count := if v.getLsbD 0 == v.getLsbD 1 then g.quad.count + 1 else g.quad.count - 1 }) ∧
        (∀ m, m ≠ n → t.sprig m = s.sprig m) ∧ (∀ m : Fin 8, m.val ≠ g.p0 → t.axis m = s.axis m) ∧
        t = { s with fab := t.fab, axes := t.axes, ports := t.ports, links := t.links, free := t.free }) ∧
    (∀ k : Fin 4, g.mode = 6 → v = g.tin ^^^ (1#4 <<< k.val) →
      bitsOf ((g.act[0]).toNat) (2 * k.val + if v.getLsbD k.val then 0 else 1) 1 = 1 →
      completes (.inputEdgeAccept n l at') s fun t =>
        let c := (t.sprig n).cap
        t = { s with fab := t.fab } ∧ (∀ m, m ≠ n → t.sprig m = s.sprig m) ∧ c.latch = g.cap.latch ∧
        (∀ j : Fin 4, j ≠ k → c.queues[j.val] = g.cap.queues[j.val]) ∧
        ((g.cap.queues[k.val]).length < 4 →
          c.queues[k.val] = g.cap.queues[k.val] ++ [⟨u.inputStamp n k.val, v.getLsbD k.val, false⟩] ∧ c.lost = g.cap.lost) ∧
        (4 ≤ (g.cap.queues[k.val]).length → c.queues[k.val] = g.cap.queues[k.val] ∧ c.lost = g.cap.lost ||| (1#4 <<< k.val))) ∧
    (g.mode = 9 →
      completes (.inputEdgeAccept n l at') s fun t => t = { s with fab := t.fab } ∧ (∀ m, m ≠ n → t.sprig m = s.sprig m) ∧
        t.sprig n = { g with tin := v, event := g.event ||| (g.tin ^^^ v) }))

/-- For a present, clocked sprig: CAPLO_READ of a capture terminal returns the low word of the oldest entry, removes it, clears the terminal's
OVF and latches its validity, edge and high part (an empty queue gives 0 and latches none); SOS_TSLO_READ returns the low word of the edge's
time and latches the high part; ILLEGAL_READ and PTO_READ return their counts and clear them. FAB_TIMELO_READ returns the fabric time's low
word and latches its high part. Nothing else changes.
For a clocked, present core. CAPTURE_ARM starts every enabled channel with no word written and none full; CAPTURE_STOP stops every channel.
CAPDATA_READ of a word that reads clean returns it and moves CAPADDR on by one word. LTIMELO_READ and SAMPLELO_READ return the low half of the
loop time and of the latest index, and latch the rest; MISSCNT_READ returns the count and clears it; DISCARDS_READ returns DISCARDS, REASON,
DONE and PEND of a slot in use and clears DISCARDS, and 0 of a free one. Nothing else changes. -/
def Obligations.MeasurementAndCaptureReads : Prop :=
  ((∀ (n : Fin 96) (k : Fin 4) (s : State), s.clocked = true → s.hasSprig n = true → (s.sprig n).mode = 6 →
     completes (.caploRead n k) s fun t => ∃ w : Word,
       t = { s with fab := { s.fab with sprigs := t.fab.sprigs }, host := { s.host with rdata := [w] } } ∧ (∀ m, m ≠ n → t.sprig m = s.sprig m) ∧
       (let g := (s.sprig n).cap
        let c := (t.sprig n).cap
        t.sprig n = { s.sprig n with cap := c } ∧ (∀ j : Fin 4, j ≠ k → c.queues[j.val] = g.queues[j.val] ∧ c.latch[j.val] = g.latch[j.val]) ∧
        (g.queues[k.val] = [] → w = 0 ∧ c.queues[k.val] = [] ∧ (c.latch[k.val]).valid = false) ∧
        (∀ e rest, g.queues[k.val] = e :: rest → w = e.time.setWidth 32 ∧ c.queues[k.val] = rest ∧
          c.latch[k.val] = { valid := true, rising := e.rising, ovf := g.lost.getLsbD k.val, hi := e.time.extractLsb' 32 16 } ∧
          c.lost = g.lost &&& ~~~(1#4 <<< k.val)))) ∧
   (∀ (n : Fin 96) (s : State), s.clocked = true → s.hasSprig n = true → (s.sprig n).mode = 7 ∨ (s.sprig n).mode = 0xA →
     completes (.sosTsloRead n) s fun t =>
       t = { s with fab := { s.fab with sprigs := t.fab.sprigs }, host := { s.host with rdata := [(s.sprig n).sos.time.setWidth 32] } } ∧
       (∀ m, m ≠ n → t.sprig m = s.sprig m) ∧
       t.sprig n = { s.sprig n with sos := { (s.sprig n).sos with hiLatch := (s.sprig n).sos.time.extractLsb' 32 16 } }) ∧
   (∀ (n : Fin 96) (s : State), s.clocked = true → s.hasSprig n = true → (s.sprig n).mode = 3 →
     completes (.illegalRead n) s fun t =>
       t = { s with fab := { s.fab with sprigs := t.fab.sprigs }, host := { s.host with rdata := [BitVec.ofNat 32 (s.sprig n).quad.illegal] } } ∧
       (∀ m, m ≠ n → t.sprig m = s.sprig m) ∧ t.sprig n = { s.sprig n with quad := { (s.sprig n).quad with illegal := 0 } }) ∧
   (∀ (n : Fin 96) (s : State), s.clocked = true → s.hasSprig n = true → (s.sprig n).mode = 5 →
     completes (.ptoRead n) s fun t =>
       t = { s with fab := { s.fab with sprigs := t.fab.sprigs }, host := { s.host with rdata := [BitVec.ofNat 32 (s.sprig n).peak.pto] } } ∧
       (∀ m, m ≠ n → t.sprig m = s.sprig m) ∧ t.sprig n = { s.sprig n with peak := { (s.sprig n).peak with pto := 0 } }) ∧
   (∀ s : State, s.clocked = true →
     completes .fabTimeloRead s fun t =>
       t = { s with fab := { s.fab with timeHi := s.times.fab.extractLsb' 32 16 }, host := { s.host with rdata := [s.times.fab.setWidth 32] } })) ∧
  (∀ (c : Fin 4) (s : State), s.clocked = true → s.hasCore c = true →
     completes (.captureArm c) s (fun t => s.coreOnly c t ∧
       t.core c = { s.core c with capRun := (s.core c).capEn, capFull := 0, capCnt := Vector.replicate 4 0 }) ∧
     completes (.captureStop c) s (fun t => s.coreOnly c t ∧ t.core c = { s.core c with capRun := 0 }) ∧
     ((let r := s.mem.read (c.val + 1) (4 * (s.core c).capAddr) 4
       r.corrected = [] ∧ r.uncorrectable = []) →
       completes (.capdataRead c) s fun t => t = { s with cores := t.cores, host := { s.host with rdata := t.host.rdata } } ∧
         t.host.rdata = [s.mem.word32 (c.val + 1) (4 * (s.core c).capAddr)] ∧ (∀ d, d ≠ c → t.core d = s.core d) ∧
         t.core c = { s.core c with capAddr := ((s.core c).capAddr + 1) % 16384 }) ∧
     completes (.ltimeloRead c) s (fun t => t = { s with cores := t.cores, host := { s.host with rdata := t.host.rdata } } ∧
       (∀ d, d ≠ c → t.core d = s.core d) ∧ t.core c = { s.core c with timeHi := (t.core c).timeHi } ∧
       ∃ w : Word, t.host.rdata = [w] ∧ (t.core c).timeHi.toNat * 2 ^ 32 + w.toNat = s.times.loop.toNat) ∧
     ∀ i : Fin 24,
       let x := s.slot c i
       let only (t : State) : Prop := t = { s with cores := t.cores, host := { s.host with rdata := t.host.rdata } } ∧
         (∀ d, d ≠ c → t.core d = s.core d) ∧ ∀ k, k ≠ i → t.slot c k = s.slot c k
       completes (.sampleloRead c i) s (fun t => only t ∧ t.slot c i = { x with sampleHi := (t.slot c i).sampleHi } ∧
         (x.kLatest < 2 ^ 48 → ∃ w : Word, t.host.rdata = [w] ∧ (t.slot c i).sampleHi.toNat * 2 ^ 32 + w.toNat = x.kLatest)) ∧
       completes (.misscntRead c i) s (fun t => only t ∧ t.slot c i = { x with misscnt := 0 } ∧ t.host.rdata = [BitVec.ofNat 32 x.misscnt]) ∧
       completes (.discardsRead c i) s (fun t => only t ∧ t.slot c i = { x with mig := { x.mig with discards := 0 } } ∧
         (x.state = .free → t.host.rdata = [0]) ∧
         (x.state ≠ .free → x.mig.discards < 65536 → x.mig.reason < 256 →
           t.host.rdata = [BitVec.ofNat 32 (65536 * x.mig.discards + 256 * x.mig.reason + 2 * x.mig.done.toNat + x.mig.pend.toNat)])))

/-- SAMPLE_TICK of a running slot whose tick has come: the next index is taken by one job and one output waiting for tick + DEADLINE, or + one
period, a pending coefficient set applies, a command of the generator goes with the job, and an idle core runs something; before the tick nothing
changes. SAMPLE_JOB_DONE completes the output of the job, takes the job off, keeps state, indices and coefficients, and frees the core for its
choice. OUTPUT_TICK at the output tick takes the first output: complete, it becomes the delivered output and goes to its sprig, whose outputs
are not held; incomplete, it counts a miss and raises 0x40, with the last output kept; beyond the handover, it counts a discard and raises 0x43.
Before it nothing changes. The last delivery a PARK waited for parks the slot. -/
def Obligations.SlotSamples : Prop :=
  (∀ (c : Fin 4) (i : Fin 24) (s : State), s.tickDue c i = true →
    completes (.sampleTick c i) s fun t =>
      let x := s.slot c i
      let y := t.slot c i
      let out := x.tickAt x.kNext + BitVec.ofNat 48 (if x.cfg.deadline = 0 then 400000000 / max 1 x.cfg.rate else x.cfg.deadline)
      t = { s with cores := t.cores } ∧ (∀ d, d ≠ c → t.core d = s.core d) ∧ (∀ j, j ≠ i → t.slot c j = s.slot c j) ∧
      y.kNext = x.kNext + 1 ∧ y.kLatest = x.kNext ∧ y.firstSample = false ∧ y.state = .running ∧ y.integ = x.integ ∧ y.outLast = x.outLast ∧
      y.gen = { x.gen with next := none } ∧
      (∃ j, y.jobs = x.jobs ++ [j] ∧ j.k = x.kNext ∧ j.tOut = out ∧ j.ran = false ∧ j.first = x.firstSample ∧ j.coef = y.coef ∧
        j.cmd = x.gen.next ∧ j.par = x.par) ∧
      (∃ o, y.outs = x.outs ++ [o] ∧ o.k = x.kNext ∧ o.tOut = out ∧ o.complete = false ∧ o.stale = false ∧ o.epoch = x.epoch) ∧
      (x.coefPend = none → y.coef = x.coef ∧ y.set = x.set) ∧
      (∀ k, x.coefPend = some k → y.coef = k ∧ y.coefPend = none ∧ y.set = !x.set) ∧
      ((s.core c).running ≠ none → (t.core c).running = (s.core c).running)) ∧
  (∀ (c : Fin 4) (i : Fin 24) (s : State),
    (s.slot c i).state ≠ .running ∨ reached ((s.slot c i).tickAt (s.slot c i).kNext) s.loopNow = false →
    completes (.sampleTick c i) s fun t => t = s) ∧
  (∀ (c : Fin 4) (i : Fin 24) (j : Job) (s : State), s.clocked = true → (s.core c).running = some i.val →
    (s.slot c i).jobs.find? (fun k => !k.ran) = some j → ((s.slot c i).mig.pend = false ∨ j.k < (s.slot c i).mig.toH) →
    completes (.sampleJobDone c) s fun t =>
      let x := s.slot c i
      let y := t.slot c i
      y.jobs = x.jobs.filter (fun k => k.k ≠ j.k) ∧ y.outs.length = x.outs.length ∧ (∀ o ∈ y.outs, o.k = j.k → o.complete = true) ∧
      (∀ o ∈ x.outs, o.k ≠ j.k → o ∈ y.outs) ∧ y.state = x.state ∧ y.kNext = x.kNext ∧ y.tau0 = x.tau0 ∧ y.coef = x.coef ∧
      y.misscnt = x.misscnt ∧ y.outLast = x.outLast ∧ (t.core c).running = (t.core c).choose s.loopNow ∧
      (∀ d, d ≠ c → t.core d = s.core d) ∧ (∀ k, k ≠ i → t.slot c k = s.slot c k) ∧
      t = { s with cores := t.cores, links := t.links, mem := { s.mem with
        capture := t.mem.capture, remap := t.mem.remap, scrub := { s.mem.scrub with back := t.mem.scrub.back } } }) ∧
  (∀ (c : Fin 4) (i : Fin 24) (o : Out) (rest : List Out) (s : State), s.clocked = true → (s.slot c i).outs = o :: rest →
    reached o.tOut s.loopNow = true → ((s.slot c i).parking = false ∨ rest ≠ []) →
    (o.stale = true → ∀ p ∈ rest.head?, reached p.tOut s.loopNow = false) →
    completes (.outputTick c i) s fun t =>
      let x := s.slot c i
      let index := 32 * c.val + i.val
      (∀ d k, (d, k) ≠ (c, i) → t.slot d k = s.slot d k) ∧
      t = { s with cores := t.cores, fab := t.fab, tlks := t.tlks, links := t.links, mem := { s.mem with
        capture := t.mem.capture, remap := t.mem.remap, scrub := { s.mem.scrub with back := t.mem.scrub.back } } } ∧
      ((∀ d, (s.core d).capRun = 0) → t.mem = s.mem) ∧
      (o.stale = false → o.complete = true → t.links = s.links ∧ t.slot c i = { x with outs := rest, outLast := o.u, delivered := true } ∧
        (x.cfg.outKind ≠ 1 → t.fab = s.fab) ∧ (x.cfg.outKind = 1 → t.tlks = s.tlks) ∧
        (∀ n : Fin 96, x.cfg.outKind = 1 → x.cfg.outIndex = n.val →
          (s.outputsHeld = true → t.fab = s.fab) ∧
          (s.outputsHeld = false → ((s.sprig n).mode ≠ 4 ∨ ∀ u, o.value ≠ .duty u) →
            t.sprig n = { s.sprig n with slotOut := some o.value, slotCycle := s.times.fab } ∧ ∀ m, m ≠ n → t.sprig m = s.sprig m))) ∧
      (o.stale = false → o.complete = false → t.fab = s.fab ∧ t.tlks = s.tlks ∧
        t.slot c i = { x with outs := rest, miss := true, misscnt := min 0xFFFF (x.misscnt + 1) } ∧ s.reports t .control 0x40 5 index) ∧
      (o.stale = true → t.fab = s.fab ∧ t.tlks = s.tlks ∧ t.mem = s.mem ∧
        t.slot c i = { x with outs := rest, mig := { x.mig with discards := min 0xFFFF (x.mig.discards + 1) } } ∧
        s.reports t .control 0x43 5 index)) ∧
  (∀ (c : Fin 4) (i : Fin 24) (s : State), (∀ o ∈ (s.slot c i).outs, reached o.tOut s.loopNow = false) → (s.slot c i).parking = false →
    completes (.outputTick c i) s fun t => t = s) ∧
  (∀ (c : Fin 4) (i : Fin 24) (o : Out) (s : State), s.clocked = true → (s.slot c i).outs = [o] → reached o.tOut s.loopNow = true →
    (s.slot c i).parking = true →
    completes (.outputTick c i) s fun t =>
      (t.slot c i).state = .parked ∧ (t.slot c i).parking = false ∧ (t.slot c i).integ = 0 ∧ (t.slot c i).jobs = [] ∧ (t.slot c i).outs = [] ∧
      ∀ k, k ≠ i → t.slot c k = s.slot c k)

/-- One sample of a PIDF or cascade slot whose job carries coefficients that a commit accepts: the output is a duty between OUT_MIN and OUT_MAX,
the integrator is unchanged or within ±I_LIM, the error is within 32 bits, the previous error and output become this sample's, and an
increment that would wind the integrator further past a clamped output is not added. -/
def Obligations.PidfSampleBounded : Prop :=
  ∀ (x : Slot) (inner : Bool) (j : Job),
    (x.cfg.kind = .pidf ∨ x.cfg.kind = .cascade) → x.supplyff = false → j.coef.outMin < j.coef.outMax → 0 ≤ j.coef.iLim →
    let o := x.compute inner j
    o.value = .duty o.u ∧ j.coef.outMin ≤ o.u ∧ o.u ≤ j.coef.outMax ∧ o.slot.uPrev = o.u ∧
      (o.slot.integ = x.integ ∨ (-j.coef.iLim ≤ o.slot.integ ∧ o.slot.integ ≤ j.coef.iLim)) ∧
      -2147483648 ≤ o.slot.errLast ∧ o.slot.errLast ≤ 2147483647 ∧ o.slot.ePrev = o.slot.errLast ∧
      (x.uPrev = j.coef.outMax → 0 < mulQ j.coef.ki o.slot.errLast → o.slot.integ = x.integ) ∧
      (x.uPrev = j.coef.outMin → mulQ j.coef.ki o.slot.errLast < 0 → o.slot.integ = x.integ)

/-- On a clocked part, for a slot of a present core that is not free. A write to an inner slot of a chain only sets CERR, and so does HOLD or
PARK of a seam slot whose axis is armed, RUN of a parked slot in the safe state, and RUN during an activation. RUN of a parked slot without inner slots releases it from a
cleared state, the integrator at PRELOAD or 0, its first tick the first multiple of 64 cycles at or after now + 64; RUN of a holding one keeps
its state; a running one ignores it; a PARK still waiting is
completed first (log entry 27), and a command of the generator that waits stays. HOLD only stops sampling, after a tick that has come, and parks
a heater or pump. PARK clears the slot where no delivery is left and
else waits for it. A write to a free slot changes nothing. -/
def Obligations.SlotModes : Prop :=
  ∀ (c : Fin 4) (i : Fin 24) (s : State), s.clocked = true → s.hasCore c = true →
    let x := s.slot c i
    let inner := (s.outerOf c i).isSome = true
    let cerr (t : State) : Prop := s.slotOnly c i t ∧ t.slot c i = { x with cerr := true }
    let parks (t : State) : Prop :=
      (∀ d, d ≠ c → t.core d = s.core d) ∧ (∀ k, k ≠ i → t.slot c k = s.slot c k) ∧ t = { s with cores := t.cores, fab := t.fab, tlks := t.tlks } ∧
      (x.outs = [] → (t.slot c i).state = .parked ∧ (t.slot c i).integ = 0 ∧ (t.slot c i).ePrev = 0 ∧ (t.slot c i).uPrev = 0 ∧
        (t.slot c i).jobs = [] ∧ (t.slot c i).ts.active = false ∧ (t.slot c i).coef = x.coef ∧ (t.slot c i).kNext = x.kNext) ∧
      (x.outs ≠ [] → t.slot c i = { x.dropNext with state := .parked, parking := true })
    (x.state = .free → completes (.slotRun c i) s (· = s) ∧ completes (.slotHold c i) s (· = s) ∧ completes (.slotPark c i) s (· = s) ∧
      completes (.coefCommit c i) s (· = s) ∧ completes (.genMove c i) s (· = s) ∧ completes (.testSignalGo c i) s (· = s) ∧
      completes (.migrationGo c i) s (· = s)) ∧
    (x.state ≠ .free → inner → completes (.slotRun c i) s cerr ∧ completes (.slotHold c i) s cerr ∧ completes (.slotPark c i) s cerr) ∧
    (x.state ≠ .free → s.seamArmed x = true → completes (.slotHold c i) s cerr ∧ completes (.slotPark c i) s cerr) ∧
    (¬inner → x.state = .parked → s.flt.safe = true → completes (.slotRun c i) s cerr) ∧
    (x.state ≠ .free → x.state ≠ .running → s.top.state = .activating → completes (.slotRun c i) s cerr) ∧
    (¬inner → x.state = .running → completes (.slotRun c i) s (· = s)) ∧
    (¬inner → ((x.state = .holding ∧ x.parking = false) ∨ (x.state = .parked ∧ s.flt.safe = false)) → x.cfg.law ≠ 3 →
      s.top.state ≠ .activating →
      completes (.slotRun c i) s fun t =>
        let y := t.slot c i
        t = { s with cores := t.cores, quiesce := t.quiesce, fab := t.fab, tlks := t.tlks, links := t.links } ∧
        (x.parking = false → t.fab = s.fab ∧ t.tlks = s.tlks ∧ y.gen.next = x.gen.next) ∧
        (∀ d, d ≠ c → t.core d = s.core d) ∧ (∀ k, k ≠ i → t.slot c k = s.slot c k) ∧
        y.state = .running ∧ y.k0 = x.kNext ∧ y.kNext = x.kNext ∧ y.tau0.toNat % 64 = 0 ∧ 64 ≤ since y.tau0 s.loopNow ∧ since y.tau0 s.loopNow < 128 ∧
        y.firstSample = true ∧ y.delivered = false ∧ y.ts.active = false ∧ y.coef = x.coef ∧ y.par = x.par ∧
        (x.state = .parked → y.integ = (if x.cfg.flags.testBit 1 then x.cfg.preload else 0) ∧ y.uPrev = 0 ∧ y.jobs = [] ∧ y.outs = []) ∧
        (x.state = .holding → y.integ = x.integ ∧ y.uPrev = x.uPrev ∧ y.jobs = x.jobs ∧ y.outs = x.outs)) ∧
    (¬inner → s.seamArmed x = false → x.cfg.law ≠ 3 → s.tickDue c i = true → x.cfg.law ≠ 4 → x.cfg.law ≠ 5 →
      completes (.slotHold c i) s fun t => (t.slot c i).state = .holding ∧ (t.slot c i).kNext = x.kNext + 1 ∧
        t = { s with cores := t.cores } ∧ (∀ d, d ≠ c → t.core d = s.core d) ∧ ∀ k, k ≠ i → t.slot c k = s.slot c k) ∧
    (¬inner → s.seamArmed x = false → x.cfg.law ≠ 3 → x.state = .running → s.tickDue c i = false →
      completes (.slotPark c i) s parks ∧
      (x.cfg.law = 4 ∨ x.cfg.law = 5 → completes (.slotHold c i) s parks) ∧
      (x.cfg.law ≠ 4 → x.cfg.law ≠ 5 →
        completes (.slotHold c i) s fun t => s.slotOnly c i t ∧ t.slot c i = { x with state := .holding })) ∧
    (¬inner → s.seamArmed x = false → x.cfg.law ≠ 3 → x.state = .holding →
      completes (.slotPark c i) s parks ∧ completes (.slotHold c i) s (· = s)) ∧
    (¬inner → s.seamArmed x = false → x.state = .parked → completes (.slotPark c i) s (· = s) ∧ completes (.slotHold c i) s (· = s))

/-- For a slot of a present core, clocked and not free. COEF_COMMIT makes the shadow pending, or only sets CERR with OUT_MIN ≥ OUT_MAX or I_LIM
< 0; COEF_DISCARD drops the pending set. GO without a generator, of OP 0b11, or of MOVE in velocity mode sets CERR and changes neither the
command in force nor a stored one; else the command goes to the next tick, or is stored while a seam holds the axis, and a limit exceeded sets
CLIP and raises 0x44. TEST_SIGNAL_GO starts the signal with the LFSR all ones, or only sets CERR where R216 refuses it; STOP and the end of
TSLEN samples end it. -/
def Obligations.SlotCommands : Prop :=
  ∀ (c : Fin 4) (i : Fin 24) (s : State), s.clocked = true → s.hasCore c = true → (s.slot c i).state ≠ .free →
    let x := s.slot c i
    let refused (t : State) : Prop := s.slotOnly c i t ∧ t.slot c i = { x with cerr := true }
    (x.coefShadow.outMin < x.coefShadow.outMax → 0 ≤ x.coefShadow.iLim →
      completes (.coefCommit c i) s fun t => s.slotOnly c i t ∧ t.slot c i = { x with coefPend := some x.coefShadow }) ∧
    (x.coefShadow.outMax ≤ x.coefShadow.outMin ∨ x.coefShadow.iLim < 0 → completes (.coefCommit c i) s refused) ∧
    completes (.coefDiscard c i) s (fun t => s.slotOnly c i t ∧ t.slot c i = { x with coefPend := none }) ∧
    (∀ op : Fin 4,
      completes (if op = 0 then .genStop c i else if op = 1 then .genMove c i else if op = 2 then .genJog c i else .gcmdGoReservedOp c i) s
        fun t =>
          let g := x.gen
          let no := x.cfg.hasGen = false ∨ op = 3 ∨ (op = 1 ∧ x.velmode = true)
          let cmd : GenCmd := { op := op.val, target := g.regTarget, vel := g.regVel, acc := g.regAcc, jerk := g.regJerk }
          let clip := x.cfg.vmax < g.regVel.natAbs ∨ x.cfg.amax < g.regAcc ∨ x.cfg.jmax < g.regJerk
          (no → s.slotOnly c i t ∧ t.slot c i = { x with cerr := true, gen := { g with regOp := op.val } }) ∧
          (¬no → t.slot c i = { x with gen := (t.slot c i).gen } ∧ (clip → (t.slot c i).gen.clip = true) ∧
            (¬clip → (t.slot c i).gen.clip = g.clip ∧ s.slotOnly c i t) ∧
            (clip → s.reports t .control 0x44 5 (32 * c.val + i.val) ∧ (∀ d, d ≠ c → t.core d = s.core d) ∧
              (∀ k, k ≠ i → t.slot c k = s.slot c k) ∧ t = { s with cores := t.cores, links := t.links }) ∧
            (g.seam = .none → (t.slot c i).gen = { g with regOp := op.val, clip := (t.slot c i).gen.clip, next := some cmd }) ∧
            (g.seam ≠ .none → (t.slot c i).gen = { g with regOp := op.val, clip := (t.slot c i).gen.clip, held := some cmd }))) ∧
    (let no := x.state ≠ .running ∨ 320000000 < s.coreLoad c + (if x.ts.active then 0 else 24 * x.cfg.rate) ∨ s.seamArmed x = true ∨
        (x.cfg.law = 6 ∧ x.ts.point = true) ∨
        (x.ts.kind = 3 ∧ (x.ts.len < 2 ∨ x.ts.f0 < 1 ∨ x.ts.f1 ≤ x.ts.f0 ∨ 8 * x.cfg.rate < x.ts.f1));
      (no → completes (.testSignalGo c i) s refused) ∧
      (¬no → completes (.testSignalGo c i) s fun t => s.slotOnly c i t ∧
        t.slot c i = { x with ts := { x.ts with
          active := true, n := 0, phase := 0, lfsr := (t.slot c i).ts.lfsr, fresh := true, sweep := (x.ts.f0, x.ts.f1, x.ts.len) } } ∧
        (x.ts.order ≤ 15 → (t.slot c i).ts.lfsr.toNat = 2 ^ x.ts.order - 1))) ∧
    completes (.testSignalStop c i) s (fun t => s.slotOnly c i t ∧ t.slot c i = { x with ts := (t.slot c i).ts } ∧ (t.slot c i).ts.active = false) ∧
    (x.ts.active = true → x.ts.len ≠ 0 → x.ts.len ≤ x.ts.n →
      completes (.testSignalEnd c i) s fun t =>
        s.slotOnly c i t ∧ t.slot c i = { x with ts := (t.slot c i).ts } ∧ (t.slot c i).ts.active = false) ∧
    (x.ts.active = true → x.ts.len = 0 ∨ x.ts.n < x.ts.len → completes (.testSignalEnd c i) s (· = s))

/-- MIGRATION_GO of a slot in use on a clocked, present core. With REASON the first of R220 that holds, only CERR and REASON change; with none,
the slot is pending with its destination and handover, and the destination reserved. MIGRATION_TRANSFER of a pending slot that its request has reached, past every sample below the
handover and with no job running beyond it: the destination holds the slot with EPOCH one on, DONE, no PEND, its state, coefficients, pending
set, parameters, generator and test signal, the source is free, and no other slot changes. -/
def Obligations.SlotMigration : Prop :=
  (∀ (c : Fin 4) (i : Fin 24) (s : State), s.clocked = true → s.hasCore c = true → (s.slot c i).state ≠ .free →
    completes (.migrationGo c i) s fun t =>
      let x := s.slot c i
      let refused (why : Nat) : Prop := s.slotOnly c i t ∧ t.slot c i = { x with cerr := true, mig := { x.mig with reason := why } }
      (x.state ≠ .running → refused 1) ∧
      (x.state = .running → x.cfg.law = 3 → refused 2) ∧
      (x.state = .running → x.cfg.law ≠ 3 →
        (x.mig.dcore = c.val ∨ (∀ a : Fin 4, x.mig.dcore = a.val → s.hasCore a = false) → refused 3) ∧
        (∀ a : Fin 4, a ≠ c → s.hasCore a = true → x.mig.dcore = a.val → 24 ≤ x.mig.dslot → refused 4) ∧
        ∀ (a : Fin 4) (b : Fin 24), a ≠ c → s.hasCore a = true → x.mig.dcore = a.val → x.mig.dslot = b.val →
          let heavy := 320000000 < s.coreLoad a + (x.cfg.kind.cost + if x.ts.active then 24 else 0) * x.cfg.rate
          let taken := (s.slot a b).state ≠ .free ∨ (s.slot a b).mig.fromSlot ≠ none
          (taken → refused 4) ∧ (¬taken → heavy → refused 5) ∧ (¬taken → ¬heavy → x.mig.h < x.kNext → refused 6) ∧
          (¬taken → ¬heavy → x.kNext ≤ x.mig.h → x.mig.pend = true → refused 7) ∧
          (¬taken → ¬heavy → x.kNext ≤ x.mig.h → x.mig.pend = false → x.gen.seam ≠ .none → refused 8) ∧
          (¬taken → ¬heavy → x.kNext ≤ x.mig.h → x.mig.pend = false → x.gen.seam = .none →
            t = { s with cores := t.cores } ∧ t.slot c i = { x with mig := { x.mig with
              pend := true, reach := s.loopNow + 64, toCore := a.val, toSlot := b.val, toH := x.mig.h } } ∧
            t.slot a b = { s.slot a b with mig := { (s.slot a b).mig with fromSlot := some (c.val, i.val) } } ∧
            ∀ d k, (d, k) ≠ (c, i) → (d, k) ≠ (a, b) → t.slot d k = s.slot d k))) ∧
  (∀ (c a : Fin 4) (i b : Fin 24) (s : State), s.clocked = true → a ≠ c → (s.slot c i).mig.toCore = a.val → (s.slot c i).mig.toSlot = b.val →
    (s.slot c i).mig.pend = true → reached (s.slot c i).mig.reach s.loopNow = true → (s.slot c i).mig.toH ≤ (s.slot c i).kNext →
    (∀ j ∈ (s.slot c i).jobs, (s.slot c i).mig.toH ≤ j.k) →
    completes (.migrationTransfer c i) s fun t =>
      let x := s.slot c i
      let y := t.slot a b
      t = { s with cores := t.cores } ∧ t.slot c i = {} ∧ y.epoch = x.epoch + 1 ∧ y.mig.done = true ∧ y.mig.pend = false ∧
      y.cfg = { x.cfg with core := a.val, slot := b.val } ∧ y = { x with cfg := y.cfg, epoch := y.epoch, mig := y.mig, jobs := y.jobs, outs := y.outs } ∧
      (∀ j ∈ y.jobs, j.ran = false) ∧
      (∀ o ∈ x.outs, o.stale = false → o.k < x.mig.toH → { o with source := some (o.source.getD (c.val, i.val)) } ∈ y.outs) ∧
      ∀ d k, (d, k) ≠ (c, i) → (d, k) ≠ (a, b) → t.slot d k = s.slot d k)
/-- For a page-mode port whose axis has a seam slot, on a clocked part. SEAM_STOP, SEAM_RESUME and SEAM_RUN take a message of the port, with the
command's fields, that its link has delivered; without one they change nothing. SEAM_STOP with another stop line in force, or in the safe state,
is ignored; else the axis notes the line and the fire position nearest it, releases a parked or holding slot, and a slot under host commands goes
to the creep phase, or in a run-up at once to a stop. At rest after its stop the slot backs up to x_b, at least BACKUP of each port behind, and
every holder shows it. At rest there SEAM_HELD sets HWM to the count at the stop line least far forward, the axis is held and sends the message to
every holder; a port that has received it, with its line, waits in STATE 3. SEAM_RESUME of the last holder makes HWM the count (log entry 140) and the slot run
forward; CANCEL of the only one hands the axis back. SEAM_RUN makes a port that asked for it run up from its resume line. At v_p the axis goes
back to host commands, a stored one first, and holds no port's seam. -/
def Obligations.SeamHandshake : Prop :=
  ∀ (p : Fin 4) (n : Fin 8) (x : Fin 4 × Fin 24) (tag : BitVec 32) (s : State), s.clocked = true → s.portAxis p = some n →
    s.seamSlot n = some x → s.scanAxis n = false →
    let m := (s.port p).seam
    let sl := s.slot x.1 x.2
    let others (t : State) : Prop := (∀ q, q ≠ p → t.port q = s.port q) ∧ ∀ c i, (c, i) ≠ x → t.slot c i = s.slot c i
    let stopMsg (fpos : BitVec 29) := s.seamMessage true 0x10 p fun y => seamTag y == tag && seamFpos y == fpos
    let resumeMsg (cancel : Bool) := s.seamMessage true 0x12 p fun y => seamTag y == tag && seamCancel y == cancel
    let heldMsg := s.seamMessage false 0x11 p fun y => seamTag y == tag
    let runMsg := s.seamMessage false 0x13 p fun y => seamTag y == tag
    (∀ fpos, stopMsg fpos = none → completes (.seamStop p tag fpos) s (· = s)) ∧
    (∀ cancel, resumeMsg cancel = none → completes (.seamResume p tag cancel) s (· = s)) ∧
    (runMsg = none → completes (.seamRun p tag) s (· = s)) ∧
    (∀ fpos g, stopMsg fpos = some g → (s.flt.safe = true ∨ (m.axisHolds = true ∧ m.axisRuns = false ∧ m.axisLine ≠ tag)) →
      completes (.seamStop p tag fpos) s (· = s.takeMessage 1 g)) ∧
    (∀ fpos g, stopMsg fpos = some g → s.flt.safe = false → (m.axisHolds = true → m.axisRuns = false → m.axisLine = tag) →
      completes (.seamStop p tag fpos) s fun t =>
        let k := (t.port p).seam
        t = { s.takeMessage 1 g with ports := t.ports, cores := t.cores } ∧ (∀ q, q ≠ p → t.port q = s.port q) ∧
        t.port p = { s.port p with seam := { m with
          axisHolds := true, axisLine := tag, axisFpos := k.axisFpos, axisResume := false, axisRuns := false } } ∧
        (k.axisFpos - fpos.toNat) % 2 ^ 29 = 0 ∧ -2 ^ 28 ≤ k.axisFpos - s.axisPos n ∧ k.axisFpos - s.axisPos n < 2 ^ 28 ∧
        (let again := m.axisLine = tag ∧ m.axisResume = true ∧ (m.axisRuns = true ∨ m.axisHolds = false)
         sl.state = .running → sl.gen.seam = .none →
          (¬again → t.slot x.1 x.2 = { sl with gen := { sl.gen with seam := .creep, replan := true } }) ∧
          (again → t.slot x.1 x.2 = { sl with gen := { sl.gen with seam := .stopping, noCreep := true, replan := true } }) ∧ others t) ∧
        (sl.state = .running → sl.gen.seam = .running →
          t.slot x.1 x.2 = { sl with gen := { sl.gen with seam := .stopping, noCreep := true, replan := true } } ∧ others t) ∧
        (sl.state = .parked ∨ sl.state = .holding → (∀ k ∈ s.chainFrom x.1 2 x.2, (s.slot x.1 k).state ≠ .free) →
          (t.slot x.1 x.2).state = .running ∧ (t.slot x.1 x.2).gen.seam ≠ .none)) ∧
    (sl.gen.seam = .stopping → sl.gen.atRest = true → sl.gen.replan = false →
      completes (.seamBackupStart n) s fun t =>
        let k := (t.slot x.1 x.2).gen
        let f := s.forwardSign n
        t = { s with ports := t.ports, cores := t.cores } ∧ (∀ c i, (c, i) ≠ x → t.slot c i = s.slot c i) ∧
        t.slot x.1 x.2 = { sl with gen := k } ∧
        (s.holders n = [] → k.seam = .none ∧ t.ports = s.ports) ∧
        (s.holders n ≠ [] → k.seam = .backing ∧ k.replan = true ∧ k.held = sl.gen.held ∧ k.cmd = sl.gen.cmd ∧
          (∀ q ∈ s.axisPorts n, f * k.xb ≤ f * (s.axisCount n).toInt - (s.prof q).backup) ∧
          (∀ q, t.port q = { s.port q with seam := { (s.port q).seam with state := (t.port q).seam.state } } ∧
            (q ∈ s.holders n → (s.port q).seam.state = 1 → (t.port q).seam.state = 2) ∧
            (q ∉ s.holders n ∨ (s.port q).seam.state ≠ 1 → t.port q = s.port q)))) ∧
    (sl.gen.seam = .backing → sl.gen.atRest = true → sl.gen.replan = false → heldMsg = none →
      completes (.seamHeld p tag) s fun t =>
        t = { s with cores := t.cores, axes := t.axes, links := t.links } ∧
        (∀ c i, (c, i) ≠ x → t.slot c i = s.slot c i) ∧ t.slot x.1 x.2 = { sl with gen := { sl.gen with seam := .held } } ∧
        (∀ a, a ≠ n → t.axis a = s.axis a) ∧ t.axis n = { s.axis n with hwm := (t.axis n).hwm } ∧
        (∀ l, s.leastForward n = some l → (t.axis n).hwm = BitVec.ofInt 32 (l / 64)) ∧
        (s.links.inj.active = false → ∀ q ∈ s.holders n, ∃ g ∈ t.links.dirs[0].wire, msgType g = 0x11 ∧
          msgPayload g = seamPayload (s.port q).seam.axisLine q.val false (s.port q).seam.axisFpos)) ∧
    (s.axisRests n = false →
      (heldMsg = none → completes (.seamHeld p tag) s (· = s)) ∧
      (∀ g, heldMsg = some g →
        ((m.state = 1 ∨ m.state = 2) → m.tag = tag → completes (.seamHeld p tag) s fun t => (t.port p).seam.state = 3 ∧
          t = { s with ports := t.ports, links := t.links } ∧ (∀ q, q ≠ p → t.port q = s.port q) ∧ (t.port p).arm = (s.port p).arm ∧
          (t.port p).fire = (s.port p).fire) ∧
        (m.tag ≠ tag → completes (.seamHeld p tag) s (· = s.takeMessage 0 g)))) ∧
    (m.axisHolds = true → m.axisLine = tag → sl.gen.seam = .held →
      (∀ g, resumeMsg false = some g → s.holders n = [p] → m.axisRuns = false →
        completes (.seamResume p tag false) s fun t =>
          t = { s with ports := t.ports, cores := t.cores, axes := t.axes, links := t.links } ∧ others t ∧
          t.port p = { s.port p with seam := { m with axisResume := true, axisRuns := true } } ∧
          (t.axis n).hwm = s.axisCount n ∧ (t.axis n).window = [] ∧ (t.axis n).exc = none ∧
          t.slot x.1 x.2 = { sl with gen := { sl.gen with seam := .running, replan := true } } ∧
          (s.links.inj.active = false → ∃ y, msgType y = 0x13 ∧ t.links.dirs[0].wire = s.links.dirs[0].wire ++ [y])) ∧
      (∀ g, resumeMsg false = some g → ∀ q ∈ s.holders n, q ≠ p → (s.port q).seam.axisResume = false →
        completes (.seamResume p tag false) s fun t => t = { s.takeMessage 1 g with ports := t.ports } ∧ (∀ q, q ≠ p → t.port q = s.port q) ∧
          t.port p = { s.port p with seam := { m with axisResume := true } }) ∧
      (∀ g, resumeMsg true = some g → s.holders n = [p] → sl.gen.atRest = true →
        completes (.seamResume p tag true) s fun t =>
          t = { s.takeMessage 1 g with ports := t.ports, cores := t.cores } ∧ others t ∧ (t.port p).seam.axisHolds = false ∧
          (t.slot x.1 x.2).gen.seam = .none)) ∧
    (∀ g, runMsg = some g → m.state = 3 → m.resumed = true → m.tag = tag → m.blocked = false →
      completes (.seamRun p tag) s fun t => t = { s.takeMessage 0 g with ports := t.ports } ∧ (∀ q, q ≠ p → t.port q = s.port q) ∧
        (t.port p).seam = { m with state := 4, stopFrom := none } ∧ (t.port p).pdp.asm = [] ∧
        (t.port p).pdp.assembled = (m.res : Int) - 1 ∧ (t.port p).pdp.f = (s.port p).pdp.f ∧ (t.port p).arm = (s.port p).arm) ∧
    (sl.gen.seam = .running → sl.gen.replan = false → sl.gen.a = 0 → sl.gen.v = s.forwardSign n * sl.gen.printSpeed sl.cfg (s.axisView sl) →
      completes (.seamHandback n) s fun t => t = { s with ports := t.ports, cores := t.cores } ∧
        (∀ c i, (c, i) ≠ x → t.slot c i = s.slot c i) ∧
        t.slot x.1 x.2 = { sl with gen := (t.slot x.1 x.2).gen } ∧ (t.slot x.1 x.2).gen.seam = .none ∧ (t.slot x.1 x.2).gen.held = none ∧
        (∀ c, sl.gen.held = some c → (t.slot x.1 x.2).gen.next = some c) ∧
        (sl.gen.held = none → (t.slot x.1 x.2).gen.replan = true ∧ (t.slot x.1 x.2).gen.cmd = sl.gen.cmd) ∧
        ∀ q, t.port q = { s.port q with seam := { (s.port q).seam with
          axisHolds := (t.port q).seam.axisHolds, axisRuns := (t.port q).seam.axisRuns } } ∧
          (q ∈ s.holders n → (t.port q).seam.axisHolds = false ∧ (t.port q).seam.axisRuns = false) ∧
          (q ∉ s.holders n → t.port q = s.port q))
/-- On a clocked part, for a port with a profile and DETECT. A poll is acknowledged where one of its first four tries is before one sticks. An
acknowledged poll of an absent head makes it present, reads its identity and starts acceptance with 100 polls: RESP_READY is written 0 and a
CHALLENGE sent; of a present one it forgets the misses. A poll without acknowledgement counts; the third in a row of a present head clears PRESENT,
ACCEPTED and OPEN, disarms the port with DISCAUSE 2, ends acceptance and commit, and reports 0x37 for each of the two. A RESP_READY poll is counted
until 0x01 is read and reads an identity still owed. ACCEPTANCE_END, the identity read, gives the first AUTHRES that applies: 1 accepts the head with
no fewer drops than its keep-RAM entry; any other is accepted as open under HEAD_OPEN and else refused, 0x34 reported. -/
def Obligations.HeadAcceptance : Prop :=
  ∀ (p : Fin 4) (s : State), s.clocked = true → (s.profile p).isSome = true →
    let q := s.port p
    let h := q.head
    let d := s.detection .data 0x37 4 p.val
    (h.detect = true → ∀ (tries : List SbTry) (id : BitVec 64) (fmt noz : BitVec 16),
      (acknowledged tries = true →
        (h.present = false → completes (.sidebandPoll p tries id fmt noz) s fun t =>
          let c := (t.port p).head.challenge
          t = { s with ports := t.ports, free := s.free + 1 } ∧ (∀ k, k ≠ p → t.port k = s.port k) ∧
          t.port p = { q with head := { h with
            misses := 0, present := true, id := id, hformat := fmt, nozzles := noz, identified := true, abusy := true, pollsLeft := 100,
            ready := false, challenge := c, bus := [h.txn 0 [] 12, h.txn 0x40 [0] 0, h.txn 0x20 (leBytes 32 c.toNat) 0] } }) ∧
        (h.present = true → completes (.sidebandPoll p tries id fmt noz) s fun t => s.portOnly p t ∧
          t.port p = { q with head := { h with misses := 0, bus := [h.pollTxn] } })) ∧
      (acknowledged tries = false →
        (h.present = false ∨ h.misses < 2 → completes (.sidebandPoll p tries id fmt noz) s fun t => s.portOnly p t ∧
          t.port p = { q with head := { h with misses := min 3 (h.misses + 1), bus := [h.pollTxn] } }) ∧
        (h.present = true → 2 ≤ h.misses → (s.flt.reactOf 0x37).blkrst = false →
          completes (.sidebandPoll p tries id fmt noz) s fun t =>
            let k := t.port p
            k.head.present = false ∧ k.head.accepted = false ∧ k.head.opened = false ∧ k.head.abusy = false ∧ k.head.usage = none ∧
            k.arm.armed = false ∧ (q.arm.armed = true → k.arm.discause = 2) ∧ (q.arm.armed = false → k.arm = q.arm) ∧
            t.links.dirs[4].reports = s.links.dirs[4].reports ++ (if q.arm.armed then [d] else []) ++
              (if h.abusy || h.usage.isSome then [d] else []) ∧
            (∀ j, j ≠ p → t.port j = s.port j) ∧
            t = { s with ports := t.ports, links := t.links, dma := t.dma, mem := { s.mem with usage := t.mem.usage },
                         quiesce := t.quiesce }))) ∧
    (h.detect = false → ∀ a id fmt noz, completes (.sidebandPoll p a id fmt noz) s (· = s)) ∧
    (∀ (ready : BitVec 8) (id : BitVec 64) (fmt noz : BitVec 16), completes (.respReadyPoll p ready id fmt noz) s fun t => s.portOnly p t ∧
      let k := if h.abusy && !h.identified then { h with id := id, hformat := fmt, nozzles := noz, identified := true } else h
      (h.abusy = true → h.ready = false → h.pollsLeft ≠ 0 →
        t.port p = { q with head := { k with pollsLeft := h.pollsLeft - 1, ready := ready == 1, bus := [h.txn 0x40 [] 1] } }) ∧
      (¬(h.abusy = true ∧ h.ready = false ∧ h.pollsLeft ≠ 0) → t.port p = { q with head := { k with bus := [h.txn 0x40 [] 1] } })) ∧
    (h.abusy = true → h.identified = false → ∀ r a b, completes (.acceptanceEnd p r a b) s (· = s)) ∧
    (h.abusy = true → h.identified = true → ∀ (response : BitVec 256) (a b : BitVec 512),
      completes (.acceptanceEnd p response a b) s fun t =>
        let k := (t.port p).head
        let gives (n : Nat) : Prop := k.authres = n ∧ k.abusy = false ∧ k.present = h.present ∧ k.id = h.id ∧
          (∀ j, j ≠ p → t.port j = s.port j) ∧ (t.port p).arm = q.arm ∧
          k.bus = [h.txn 0x60 [] 32, h.txn 0x80 [] 64, h.txn 0xC0 [] 64] ∧
          t = { s with ports := t.ports, mem := { s.mem with usage := t.mem.usage }, links := t.links } ∧
          (n = 1 → k.accepted = true ∧ k.opened = false ∧ t.links = s.links ∧
            ∀ e, s.mem.usage[p.val] = some e → e.1 = h.id → e.2.1 ≤ k.drops) ∧
          (n ≠ 1 → s.headOpen = true → k.accepted = true ∧ k.opened = true ∧ t.links = s.links) ∧
          (n ≠ 1 → s.headOpen = false → k.accepted = false ∧ k.opened = false ∧ s.reports t .data 0x34 4 p.val)
        (h.keyStore = none → gives 4) ∧
        ∀ key, h.keyStore = some key →
          let form := h.hformat = 1
          let size := h.nozzles.toNat = (s.prof p).nozzles
          let right := leBytes 32 response.toNat = h.expectedResponse key
          let record := h.slotValid key a = true ∨ h.slotValid key b = true ∨ (a = BitVec.allOnes 512 ∧ b = BitVec.allOnes 512)
          (¬form → gives 6) ∧ (form → ¬size → gives 7) ∧ (form → size → h.ready = false → h.pollsLeft = 0 → gives 3) ∧
          (form → size → h.ready = false → h.pollsLeft ≠ 0 → t = s) ∧ (form → size → h.ready = true → ¬right → gives 2) ∧
          (form → size → h.ready = true → right → ¬record → gives 5) ∧ (form → size → h.ready = true → right → record → gives 1))

/-- For a clocked, present port. AUTH while armed, authenticating or committing only sets CERR; else it starts acceptance of a present head, the identity to be read anew.
USAGE of an accepted head that is not open starts a commit of the present count with SEQ one on, to the slot not holding the newer record, or
marks one pending; of any other head it only sets CERR. A commit every page of which was written and that reads back as written makes its SEQ and slot the
newest; any other reports 0x37 and leaves them. A transfer is refused while the port authenticates or commits and for writes that touch 0x20 to 0xFF, and ends with DONE, and with
ERR where it was not acknowledged. DROPSLO_READ returns DROPS bits 31:0 and latches bits 47:32. -/
def Obligations.HeadCommands : Prop :=
  ∀ (p : Fin 4) (s : State), s.clocked = true → s.hasPort p = true →
    let q := s.port p
    let h := q.head
    let becomes (c : Instr) (k : Head) : Prop := completes c s fun t => s.portOnly p t ∧ t.port p = { q with head := k }
    (q.arm.armed = true ∨ h.abusy = true ∨ h.usage ≠ none → becomes (.hctrlAuth p) { h with cerr := true }) ∧
    (q.arm.armed = false → h.abusy = false → h.usage = none → h.present = true →
      completes (.hctrlAuth p) s fun t => t = { s with ports := t.ports, free := s.free + 1 } ∧ (∀ k, k ≠ p → t.port k = s.port k) ∧
        let c := (t.port p).head.challenge
        t.port p = { q with head := { h with
          abusy := true, identified := false, pollsLeft := 100, ready := false, challenge := c,
          bus := [h.txn 0 [] 12, h.txn 0x40 [0] 0, h.txn 0x20 (leBytes 32 c.toNat) 0] } }) ∧
    (h.accepted = false ∨ h.opened = true → becomes (.hctrlUsage p) { h with cerr := true }) ∧
    (h.accepted = true → h.opened = false →
      (h.usage ≠ none → h.usagePend = none → becomes (.hctrlUsage p) { h with usagePend := some 3 }) ∧
      (h.usage = none → ∀ key, h.keyStore = some key →
        completes (.hctrlUsage p) s fun t => s.portOnly p t ∧
          ∃ op, t.port p = { q with head := { h with usage := some op } } ∧ op.cause = 3 ∧ op.seq = h.useq + 1 ∧ op.drops = h.drops ∧
            op.slotB = !h.newestB)) ∧
    (∀ op, h.usage = some op → h.usagePend = none →
      completes (.usageCommitEnd p true op.record) s fun t =>
        t = { s with ports := t.ports, mem := { s.mem with usage := t.mem.usage }, quiesce := t.quiesce, links := t.links } ∧
        (∀ k, k ≠ p → t.port k = s.port k) ∧
        t.port p = { q with head := { h with
          usage := none, useq := op.seq, newestB := op.slotB, descentWait := false, bus := h.usageTxns op } } ∧
        t.mem.usage[p.val] = some (h.id, h.drops, op.seq)) ∧
    (∀ op written back, h.usage = some op → h.usagePend = none → (s.flt.reactOf 0x37).blkrst = false → written = false ∨ back ≠ op.record →
      completes (.usageCommitEnd p written back) s fun t =>
        t = { s with ports := t.ports, quiesce := t.quiesce, links := t.links } ∧
        (∀ k, k ≠ p → t.port k = s.port k) ∧
        t.port p = { q with head := { h with usage := none, descentWait := false, bus := h.usageTxns op } } ∧
        s.reports t .data 0x37 4 p.val) ∧
    (∀ op c key, h.usage = some op → h.usagePend = some c → h.keyStore = some key →
      completes (.usageCommitEnd p true op.record) s fun t =>
        t = { s with ports := t.ports, mem := { s.mem with usage := t.mem.usage } } ∧ (∀ k, k ≠ p → t.port k = s.port k) ∧
        (t.port p).head.usagePend = none ∧ (t.port p).head.useq = op.seq ∧
        ∃ o, (t.port p).head.usage = some o ∧ o.cause = c ∧ o.seq = op.seq + 1 ∧ o.drops = h.drops ∧ o.slotB = !op.slotB) ∧
    (let no := h.abusy = true ∨ h.usage ≠ none ∨ (h.sbWrite = true ∧ h.sbAddr ≤ 0xFF ∧ 0x20 ≤ h.sbAddr + h.sbLen);
     (h.sbBusy = false → no → becomes (.sbTransfer p) { h with sbErr := true, sbDone := true }) ∧
     (h.sbBusy = false → ¬no → becomes (.sbTransfer p) { h with sbBusy := true, sbRun := (h.sbWrite, h.sbLen) }) ∧
     (h.sbBusy = true → becomes (.sbTransfer p) h)) ∧
    (∀ tries data, h.sbBusy = true → completes (.sbTransferDone p tries data) s fun t => s.portOnly p t ∧
      let ack := acknowledged tries
      t.port p = { q with head := { h with
        sbBusy := false, sbDone := true, sbErr := h.sbErr || !ack, sbData := (t.port p).head.sbData, bus := [h.hostTxn] } } ∧
      (ack = false ∨ h.sbRun.1 = true → (t.port p).head.sbData = h.sbData) ∧
      (ack = true → h.sbRun.1 = false → h.sbRun.2 < 4 → (t.port p).head.sbData.toNat = data.toNat % 2 ^ (8 * (h.sbRun.2 + 1)))) ∧
    completes (.dropsloRead p) s (fun t => t = { s with ports := t.ports, host := { s.host with rdata := t.host.rdata } } ∧
      (∀ k, k ≠ p → t.port k = s.port k) ∧ t.port p = { q with head := { h with dropsHi := (t.port p).head.dropsHi } } ∧
      (h.drops < 2 ^ 48 → ∃ w : Word, t.host.rdata = [w] ∧ (t.port p).head.dropsHi.toNat * 2 ^ 32 + w.toNat = h.drops))

/-- For a channel of a present engine on a clocked part. START makes an idle, stopped or halted channel run, or idle with an empty list; STOP
stops a running one at its descriptor boundary. DMA_DESCRIPTOR of a channel that may fetch reads 32 bytes at DTAIL: a valid descriptor begins
with its record owed; an invalid one advances DTAIL, halts the channel, is owed with STATUS 0x01 and raises 0x20; a channel that may not fetch
stays. COMPLETION_RECORD_POST writes the oldest owed record, if complete and with room, as 16 bytes at RHEAD and advances RHEAD; without room
it raises 0x21 once. A time-out of a fetch or of the last burst halts the channel with STATUS 0x02 owed. DMA_DISC_READ returns and clears DISC. -/
def Obligations.DmaDescriptors : Prop :=
  ∀ (c : Fin 64) (s : State), s.clocked = true → s.hasChan c = true →
    let k := s.chan c
    let dma (t : State) : Prop := t.dma.hostMem = s.dma.hostMem ∧ ∀ e, e ≠ c → t.chan e = s.chan e
    let next := if k.dsize = 0 then k.dtail else (k.dtail + 1) % k.dsize
    let fetches := k.state = .running ∧ k.cur = none ∧ k.dtail ≠ k.dhead ∧ k.owed.length < 32 ∧
      ((∀ o ∈ k.owed.head?, o.complete = false) ∨ k.room = true)
    let r := s.mem.read 6 ((k.dbase.toNat + 32 * k.dtail) % 0x2000) 32
    let d := Desc.ofBytes (if k.loc then r.bytes else hostBytes s.dma.hostMem (k.dbase.toNat + 32 * k.dtail) 32)
    let readable := (k.loc = true ∧ r.corrected = [] ∧ r.uncorrectable = [] ∧ (r.unwritten = [] ∨ s.mem.uwrep = false)) ∨
      (k.loc = false ∧ s.sys.variant.pcie = true ∧ s.host.link = .l0)
    let halts (status : Nat) (t : State) : Prop := dma t ∧ (t.chan c).state = .halted ∧ (t.chan c).cur = none ∧ (t.chan c).dtail = next ∧
      ∃ o, (t.chan c).owed = k.owed ++ [o] ∧ o.status = status ∧ o.complete = true ∧ o.ended = true ∧ o.index = k.dtail
    (k.state = .running ∨ k.state = .stopping → completes (.dmaStart c) s fun t => s.chanOnly c t ∧ t.chan c = k) ∧
    (k.state ≠ .running → k.state ≠ .stopping →
      completes (.dmaStart c) s fun t => s.chanOnly c t ∧ t.chan c = { k with state := if k.dtail = k.dhead then .idle else .running }) ∧
    completes (.dmaStop c) s (fun t => t = { s with dma := t.dma } ∧ dma t ∧
      (k.state = .running → t.chan c = { k with state := if k.cur = none then .stopped else .stopping }) ∧
      (k.state ≠ .running → t.chan c = k)) ∧
    (¬fetches → completes (.dmaDescriptor c) s (· = s)) ∧
    (fetches → readable → s.descInvalid c d = false → d.isPrint = false →
      completes (.dmaDescriptor c) s fun t => s.chanOnly c t ∧
        ∃ o, t.chan c = { k with cur := some d, done := 0, bursts := [], written := 0, fail := 0, mismatches := 0, firstMismatch := none,
                                 owed := k.owed ++ [o] } ∧ o.desc = d ∧ o.index = k.dtail ∧ o.ended = false ∧ o.complete = false) ∧
    (fetches → readable → s.descInvalid c d = true → (∀ o ∈ k.owed, o.ended = true) → (s.flt.reactOf 0x20).blkrst = false →
      completes (.dmaDescriptor c) s fun t => halts 1 t ∧ s.reports t .data 0x20 3 c.val ∧ t = { s with dma := t.dma, links := t.links }) ∧
    (fetches → readable → s.descInvalid c d = false → d.isPrint = true →
      completes (.dmaDescriptor c) s fun t => t = { s with dma := t.dma, ports := t.ports } ∧ dma t ∧ (t.chan c).cur = some d ∧
        (t.chan c).state = .running ∧ (t.chan c).dtail = k.dtail ∧ d ∈ (t.chan c).log ∧ (t.chan c).log.length ≤ 64 ∧
        (∀ q, q ≠ d.portOf → t.port q = s.port q) ∧ (t.port d.portOf).pdp.channel = some c.val ∧
        (d.isEnd = true → (t.port d.portOf).pdp.endTag = some (d.tag + d.length - 1)) ∧
        (d.isEnd = false → (t.port d.portOf).pdp.endTag = (s.port d.portOf).pdp.endTag)) ∧
    (∀ o rest, k.owed = o :: rest → o.complete = true → k.room = true → (k.loc = true ∨ s.host.link = .l0) →
      completes (.completionRecordPost c) s fun t =>
        let k' := t.chan c
        let record := o.record c.val k.phase
        t = { s with dma := t.dma, host := t.host, mem := t.mem } ∧ (∀ e, e ≠ c → t.chan e = s.chan e) ∧
        t.dma.engines = s.dma.engines ∧ record.length = 16 ∧
        (k.loc = false → t.mem = s.mem ∧ t.dma.hostMem = hostWrite s.dma.hostMem (k.rbase.toNat + 16 * k.rhead) record) ∧
        (k.loc = true → t.dma.hostMem = s.dma.hostMem ∧ t.mem = s.mem.writeBytes 6 ((k.rbase.toNat + 16 * k.rhead) % 0x2000) record) ∧
        k'.owed = rest ∧ k'.rhead = (k.rhead + 1) % k.rsize ∧ k'.lastStatus = o.status ∧ k'.state = k.state ∧ k'.dtail = k.dtail ∧
        (k'.rhead = 0 → k'.phase = !k.phase) ∧ (k'.rhead ≠ 0 → k'.phase = k.phase) ∧ (o.desc.ctrl.getLsbD 11 = false → t.host = s.host)) ∧
    (∀ o rest, k.owed = o :: rest → o.complete = true → k.room = false → k.fullRaised = false → (k.loc = true ∨ s.host.link = .l0) →
      completes (.completionRecordPost c) s fun t =>
        dma t ∧ t.chan c = { k with fullRaised := true } ∧ s.reports t .data 0x21 3 c.val ∧ t = { s with dma := t.dma, links := t.links }) ∧
    ((k.owed = [] ∨ ∃ o rest, k.owed = o :: rest ∧ o.complete = false) → completes (.completionRecordPost c) s (· = s)) ∧
    (fetches → k.loc = false → s.sys.variant.pcie = true → s.replayOf c = none → (∀ o ∈ k.owed, o.ended = true) →
      completes (.pcieCompletionTimeout c) s fun t => halts 2 t ∧ t = { s with dma := t.dma }) ∧
    (∀ d n, k.cur = some d → k.bursts = [n] → k.fail = 0 → d.readsHost = true → d.isPrint = false → s.replayOf c = none →
      completes (.pcieCompletionTimeout c) s fun t => t = { s with dma := t.dma, links := t.links } ∧ dma t ∧ (t.chan c).cur = none ∧
        (t.chan c).dtail = next ∧ (d.compares = false ∨ k.mismatches = 0 → t.links = s.links) ∧
        (d.compares = true → k.mismatches ≠ 0 → s.reports t .data 0x22 3 c.val) ∧
        ∀ o ∈ k.owed, o.ended = false → (t.chan c).state = .halted ∧
          ∃ o' ∈ (t.chan c).owed, o'.index = o.index ∧ o'.desc = o.desc ∧ o'.status = 2 ∧ o'.complete = true) ∧
    completes (.dmaDiscRead c) s (fun t => t = { s with dma := t.dma, host := { s.host with rdata := [BitVec.ofNat 32 k.disc] } } ∧ dma t ∧
      t.dma.engines = s.dma.engines ∧ t.chan c = { k with disc := 0 })

/-- For a present engine on a clocked part. DMA_GRANT with no grant in force gives it to the first requesting channel after the one served
last, and to none where none requests. DMA_BURST appends to the granted channel, where it may issue, one burst of 1 to 512 bytes that stays
within the descriptor, and else changes nothing. A completed burst of a COPY or FILL to host memory writes the source's bytes, or the constant,
at the destination and no other byte; the last one completes the record with COUNT; a COMPARE burst writes nothing and counts the bytes that
differ; a burst for a port that has disarmed only counts in DISC. -/
def Obligations.DmaBursts : Prop :=
  (∀ (e : Fin 4) (s : State), s.clocked = true → s.hasEngine e.val = true →
    let g := s.engine e
    let at' (n : Nat) : Fin 16 := ⟨(g.lastServed + 1 + n) % 16, Nat.mod_lt _ (by decide)⟩
    (g.granted = none → (∀ i, s.requests (State.chanOf e i) = false) → completes (.dmaGrant e) s (· = s)) ∧
    (g.granted = none → ∀ n, n < 16 → s.requests (State.chanOf e (at' n)) = true →
      (∀ m, m < n → s.requests (State.chanOf e (at' m)) = false) →
      completes (.dmaGrant e) s fun t => t = { s with dma := { s.dma with engines := t.dma.engines } } ∧
        t.engine e = { granted := some (at' n).val, lastServed := (at' n).val } ∧ ∀ f, f ≠ e → t.engine f = s.engine f) ∧
    (∀ i : Fin 16, g.granted = some i.val → s.grantOver (State.chanOf e i) = false → completes (.dmaGrant e) s (· = s)) ∧
    (∀ i : Fin 16, g.granted = some i.val →
      completes (.dmaBurst e) s fun t =>
        let c := State.chanOf e i
        let k := s.chan c
        (k.cur = none → t = s) ∧
        (∀ d, k.cur = some d → s.mayBurst c d = false → t = s) ∧
        (∀ d, k.cur = some d → s.mayBurst c d = true → s.chanOnly c t ∧
          ∃ n, t.chan c = { k with bursts := k.bursts ++ [n] } ∧ 0 < n ∧ n ≤ 512 ∧ k.issued + n ≤ s.descBytes d))) ∧
  (∀ (c : Fin 64) (d : Desc) (n : Nat) (rest : List Nat) (s : State), s.clocked = true → (s.chan c).cur = some d →
    (s.chan c).bursts = n :: rest → (s.chan c).fail = 0 → s.host.link = .l0 →
    let k := s.chan c
    let dma (t : State) : Prop := t = { s with dma := t.dma } ∧ ∀ e, e ≠ c → t.chan e = s.chan e
    let bytes := if d.fills then List.replicate n (BitVec.ofNat 8 d.src) else hostBytes s.dma.hostMem (d.src + k.done) n
    (d.isPrint = false → d.compares = false → (d.fills = true ∨ d.srck = 0) → d.dstk = 0 →
      (rest ≠ [] ∨ k.done + n < d.length →
        completes (.dmaBurstComplete c) s fun t => dma t ∧ t.dma.hostMem = hostWrite s.dma.hostMem (d.dst + k.done) bytes ∧
          t.chan c = { k with bursts := rest, done := k.done + n, written := k.written + n }) ∧
      (∀ o, rest = [] → k.done + n = d.length → k.written = k.done → k.owed.filter (fun x => !x.ended) = [o] → o.status = 0 →
        completes (.dmaBurstComplete c) s fun t => dma t ∧ t.dma.hostMem = hostWrite s.dma.hostMem (d.dst + k.done) bytes ∧
          (t.chan c).cur = none ∧ (t.chan c).bursts = [] ∧
          (k.state = .running ∨ k.state = .stopping → (t.chan c).state ≠ .halted) ∧
          { o with ended := true, complete := true, count := d.length } ∈ (t.chan c).owed)) ∧
    (d.isPrint = false → d.compares = true → d.srck = 0 → d.dstk = 0 → (rest ≠ [] ∨ k.done + n < d.length) →
      completes (.dmaBurstComplete c) s fun t => dma t ∧ t.dma.hostMem = s.dma.hostMem ∧
        (t.chan c).done = k.done + n ∧ (t.chan c).written = k.written ∧
        (hostBytes s.dma.hostMem (d.src + k.done) n = hostBytes s.dma.hostMem (d.dst + k.done) n → (t.chan c).mismatches = k.mismatches) ∧
        (hostBytes s.dma.hostMem (d.src + k.done) n ≠ hostBytes s.dma.hostMem (d.dst + k.done) n → k.mismatches < (t.chan c).mismatches)) ∧
    (d.isPrint = true → (s.port d.portOf).pdp.channel ≠ some c.val → rest ≠ [] →
      completes (.dmaBurstComplete c) s fun t => dma t ∧ t.dma.hostMem = s.dma.hostMem ∧
        (t.chan c).disc = min 0xFFFFFFFF (k.disc + n) ∧ (t.chan c).bursts = rest ∧ (t.chan c).done = k.done))
/-- While management registers are served. A TOP_SDATA write with SLOT or outside idle only moves WADDR; any other writes its four bytes at
WADDR of the staged slot and withdraws STAGED_VALID and the prepared structure. A TOP_SDATA read of a clean word returns it and moves WADDR.
VALIDATE and CLEAR outside idle are ignored, and an ACTIVATE there, or with a condition of R66 not met, sets ACT_REFUSED and raises 0x64, an
activation that is to follow a validation staying so; one that may proceed asks both planes for quiescence with a TYPE 0x30 message each. VALIDATE at L4 or deeper ends at once with code 0x0F and 0x60. CLEAR_DONE leaves every byte of
the staged slot reading 0x00 without an error. -/
def Obligations.LoaderCommands : Prop :=
  ∀ s : State, s.mgmtServed = true →
    let x := s.top
    let on := (x.waddr + 1) % 16384
    let signals (t : State) : Prop := t = { s with top := t.top, flt := t.flt, host := t.host, sys := t.sys, thm := t.thm }
    (∀ w, x.slotSel = true ∨ x.state ≠ .idle → completes (.topSdataWrite w) s fun t => t = { s with top := { x with waddr := on } }) ∧
    (∀ w, x.slotSel = false → x.state = .idle → completes (.topSdataWrite w) s fun t =>
      t = { s with top := { x with waddr := on, stagedValid := false, prepared := none },
                   mem := s.mem.writeBytes 7 (4 * x.waddr) (leBytes 4 w.toNat) }) ∧
    (∀ m, m = (if x.slotSel then 8 else 7) → (s.mem.read m (4 * x.waddr) 4).corrected = [] → (s.mem.read m (4 * x.waddr) 4).uncorrectable = [] →
      completes .topSdataRead s fun t =>
        t = { s with top := { x with waddr := on }, host := { s.host with rdata := [s.mem.word32 m (4 * x.waddr)] } }) ∧
    (x.state ≠ .idle → completes .validate s (· = s) ∧ completes .clear s (· = s)) ∧
    (x.state = .idle → completes .clear s fun t =>
      t = { s with top := { x with state := .clearing, stagedValid := false, prepared := none } }) ∧
    (x.state = .idle → s.running = true →
      completes .validate s fun t => t = { s with top := { x with state := .validating, actAfterVal := false } }) ∧
    (x.state = .clearing → completes .clearDone s fun t => t.top = { x with state := .idle } ∧
      t = { s with top := t.top, mem := { s.mem with staged := t.mem.staged } } ∧ ∀ a, a < 0x10000 → t.mem.staged.readByte a = (0, .clean)) ∧
    (x.state ≠ .idle ∨ s.mayActivate = false → completes .activate s fun t =>
      signals t ∧ t.top = { x with actRefused := true } ∧ t.flt = (s.raise .management 0x64 11 0).flt) ∧
    (x.stagedValid = true → x.state = .idle → s.running = true → s.ladder.rung ≤ 1 → s.ladder.phase = .idle →
      (∀ c, (s.chan c).state ≠ .running ∧ (s.chan c).state ≠ .stopping) →
      completes .activate s fun t =>
        t = { s with top := { x with state := .activating, actAfterVal := false }, quiesce := t.quiesce, links := t.links } ∧
        t.quiesce.purpose = .activation ∧ t.quiesce.control = .asked ∧ t.quiesce.data = .asked ∧
        (s.links.inj.active = false → ∀ d : Fin 6, d = 3 ∨ d = 5 → ∃ m, msgType m = 0x30 ∧
          t.links.dirs[d.val].wire = s.links.dirs[d.val].wire ++ [m]))

/-- VALIDATE with STATE idle at L4 or deeper is rejected with code 0x0F and 0x60. The end of a validation without an ACTIVATE to
follow returns STATE to idle and leaves the structure in force. Accepted, REJECT is 0 and the bytes read start with "TPRY", FORMAT
is 0x0100, the running variant's bit is set, TOTAL_LEN is a multiple of 8 from 0x60 to 0x10000, the CRC over them with its own bytes as zero
agrees, the ID is not 0 and none is uncorrectable. Rejected, STAGED_VALID is 0 and, with no error read, 0x60 alone is raised; with an uncorrectable byte
among those judged the code is 0x0E at the first of them. -/
def Obligations.ValidationVerdict : Prop :=
  (∀ s : State, s.running = true → s.top.state = .idle → 4 ≤ s.ladder.rung →
    completes .validate s fun t => t.top = { s.top with reject := 0x0F, offset := 0, valDone := true, actAfterVal := false, prepared := none,
                                                        stagedValid := false } ∧ t.flt = (s.raise .management 0x60 11 0).flt ∧
      t = { s with top := t.top, flt := t.flt, host := t.host, sys := t.sys, thm := t.thm }) ∧
  (∀ s : State, s.mgmtServed = true → s.top.state = .validating → s.top.actAfterVal = false →
    completes .validationEnd s fun t =>
      let n := s.validationLength
      let b := (s.mem.read 7 0 n).bytes.map BitVec.toNat
      t.top.state = .idle ∧ t.top.valDone = true ∧ t.top.image = s.top.image ∧ t.top.activeValid = s.top.activeValid ∧
      t = { s with top := t.top, flt := t.flt, host := t.host, sys := t.sys, thm := t.thm, mem := { s.mem with trackers := t.mem.trackers } } ∧
      (t.top.stagedValid = false → t.top.prepared = none ∧
        ((s.mem.read 7 0 n).corrected = [] → (s.mem.read 7 0 n).uncorrectable = [] → t.flt = (s.raise .management 0x60 11 0).flt)) ∧
      (t.top.stagedValid = true → t.top.reject = 0 ∧ t.top.prepared ≠ none ∧
        u32 b 0 = 0x59525054 ∧ u16 b 4 = 0x0100 ∧ (u8 b 6).testBit s.sys.variant.maskBit = true ∧ u32 b 8 = n ∧ 0x60 ≤ n ∧ n ≤ 0x10000 ∧
        n % 8 = 0 ∧ (crc32 ((b.take 12 ++ [0, 0, 0, 0] ++ b.drop 16).map (BitVec.ofNat 8))).toNat = u32 b 12 ∧ u32 b 16 ≠ 0 ∧ s.stagedBad n = []) ∧
      (s.stagedBad n ≠ [] → t.top.reject = 0x0E ∧ t.top.offset ∈ s.stagedBad n ∧ ∀ o ∈ s.stagedBad n, t.top.offset ≤ o))

/-- ACTIVATION_SWAP of a prepared image once both planes have confirmed: the two slots exchange contents, the image is in force, ACTIVE_VALID
and SWAP_DONE are 1, STAGED_VALID is 0, every loop slot is parked or free, every sprig is the image's, inactive, and every port's windows are
empty with no seam and its arming and head kept. Fault records, both keep RAMs, DMA, links, nodes and host side stay. Before both have confirmed
nothing changes. -/
def Obligations.ActivationSwaps : Prop :=
  (∀ (i : Image) (s : State), s.running = true → s.top.state = .activating → s.top.prepared = some i → s.quiesce.purpose = .activation →
    s.quiesce.control = .recorded → s.quiesce.data = .recorded →
    completes .activationSwap s fun t =>
      t.mem.staged = s.mem.active ∧ t.mem.active = s.mem.staged ∧ t.mem.keepMgmt = s.mem.keepMgmt ∧ t.mem.keepDma = s.mem.keepDma ∧
      t.top.image = i ∧ t.top.activeValid = true ∧ t.top.swapDone = true ∧ t.top.stagedValid = false ∧ t.top.prepared = none ∧
      t.top.state = .idle ∧ t.top.actId = i.id ∧ t.quiesce = {} ∧ t.thm.startup = false ∧
      (∀ c k, (t.slot c k).state = .parked ∨ (t.slot c k).state = .free) ∧
      (∀ n, t.sprig n = { i.sprigAt n.val with tach := { start := t.times.fab }, peak := { seen := t.cal.samples } } ∧
        (t.sprig n).active = false) ∧
      (∀ p, (t.port p).pdp.valid = [] ∧ (t.port p).pdp.f = -1 ∧ (t.port p).pdp.asm = [] ∧ (t.port p).seam.state = 0 ∧
        (t.port p).fire.committed = none ∧ (t.port p).arm = (s.port p).arm ∧ (t.port p).head = (s.port p).head) ∧
      t.flt = { s.flt with react := t.flt.react } ∧ t.dma = s.dma ∧ t.links = s.links ∧ t.nodes = s.nodes ∧ t.host = s.host ∧
      t.sys = s.sys ∧ t.otp = s.otp ∧ t.ladder = s.ladder) ∧
  (∀ s : State, (s.quiesce.control ≠ .recorded ∨ s.quiesce.data ≠ .recorded ∨ s.top.state ≠ .activating) →
    completes .activationSwap s (· = s))
/-- A formed frame carries its address, SEQ, type and payload, passes its CRC and arrives as it was sent where no line bit is inverted.
TLINK_CYCLE_START of a present port in use, not suspended and not under injection, on a clocked part: one cycle more, eight frames; a port in the
safe state sends SAFE in each; a running one sends a configured node its command with SEQ 1 the first time, one on where it differs from the last and
else the same, and an unconfigured one EMPTY; SYNC makes the first node sample, or reaches no node, and the upstream cycle of the nodes sets out.
FEEDBACK with a wrong CRC or code counts PLNCRC and reports 0x50; a frame of another type or address is ignored; the first after CONFIG, and one at
most 8 SEQs on, brings the node's values, 0x51 reported for each passed over (log entry 30); a repeat or an old one reports 0x52 and changes nothing. The end of the
slot in the third cycle without feedback loses the node: SAFE goes to it, its slots park, 0x53 is reported. RESTORE is sent after 16 valid cycles with
its slots parked, else CERR is set. PLNCRC_READ returns the error word and clears PLNCRC. -/
def Obligations.TohevikTraffic : Prop :=
  (∀ (addr seq type : Nat) (payload : BitVec 160), addr < 16 → seq < 16 → type < 256 →
    let f := mkFrame addr seq type payload
    frameOk ⟨f, true⟩ = true ∧ frameAddr f = addr ∧ frameSeq f = seq ∧ frameType f = type ∧ framePayload f = payload ∧
      ∀ rd, arriving rd f 0 = ⟨f, true⟩) ∧
  (∀ (n : Fin 8) (samples : Vector (Option NodeSample) 8) (s : State), s.clocked = true → s.hasTlk n = true → (s.tlk n).inj.active = false →
    (s.tlk n).state ≠ .unused → (s.tlk n).state ≠ .suspended →
    completes (.tlinkCycleStart n samples) s fun t =>
      t = { s with tlks := t.tlks, nodes := t.nodes } ∧ (∀ m, m ≠ n → t.tlk m = s.tlk m ∧ ∀ q, t.node m q = s.node m q) ∧
      (t.tlk n).cycle = (s.tlk n).cycle + 1 ∧ (t.tlk n).state = (s.tlk n).state ∧ (t.tlk n).startAt = s.times.passed ∧
      (t.tlk n).up.map (·.bits) = (s.tlk n).up.map (·.bits) ++ upstreamCycle t.nodes[n.val] ∧
      (samples[0] = none → (∀ q, (t.node n q).reached = false) ∧ (t.tlk n).up = (s.tlk n).up) ∧
      (∀ x, samples[0] = some x → (t.node n 0).reached = true ∧ (t.node n 0).sample = x ∧ (t.node n 0).seq = ((s.node n 0).seq + 1) % 16 ∧
        (t.node n 0).address = (s.node n 0).address) ∧
      (t.tlk n).sent.length = 8 ∧ ((s.tlk n).state = .safe → ∀ f ∈ (t.tlk n).sent, f = safeFrameBits) ∧
      ((s.tlk n).state = .running → ∀ (p : Fin 8) (r : NodeRec), (s.chain n)[p.val]? = some r →
        let a := s.tnode n p
        let b := t.tnode n p
        let cmd := s.nodeCommand n p r
        (a.configured = false → (t.tlk n).sent[p.val]? = some (emptyFrame p.val)) ∧
        (a.configured = true → a.sendSafe = true → a.restoring = false → (t.tlk n).sent[p.val]? = some safeFrameBits) ∧
        (a.configured = true → a.restoring = true → (t.tlk n).sent[p.val]? = some (mkFrame p.val a.cseq 0x13 0)) ∧
        (a.configured = true → a.sendSafe = false → a.restoring = false →
          (t.tlk n).sent[p.val]? = some (mkFrame p.val b.cseq 0x01 cmd) ∧ b.sentCmd = some cmd ∧ (a.sentCmd = none → b.cseq = 1) ∧
          (a.sentCmd = some cmd → b.cseq = a.cseq) ∧ (∀ c, a.sentCmd = some c → c ≠ cmd → b.cseq = (a.cseq + 1) % 16)))) ∧
  (∀ (n : Fin 8) (samples : Vector (Option NodeSample) 8) (s : State), (s.tlk n).state = .unused ∨ (s.tlk n).state = .suspended →
    completes (.tlinkCycleStart n samples) s (· = s)) ∧
  (∀ (n p : Fin 8) (flips : BitVec 240) (u : UpFrame) (s : State), (s.tlk n).up.find? (fun v => v.pos = p.val) = some u →
    (s.tlk n).inj.on 1 p.val = false → ∃ t, s.receiveUp n p flips = some (arriving u.rd u.bits flips, t)) ∧
  (∀ (n p : Fin 8) (flips : BitVec 240) (s : State), s.clocked = true → ((s.tlk n).state = .running ∨ (s.tlk n).state = .safe) →
    (s.tnode n p).configured = true →
    (s.receiveUp n p flips = none → completes (.feedback n p flips) s (· = s)) ∧
    ∀ (f : Frame) (u : State), s.receiveUp n p flips = some (f, u) →
    completes (.feedback n p flips) s fun t =>
      let a := s.tnode n p
      let b := t.tnode n p
      let i := 8 * n.val + p.val
      let others := (∀ m, m ≠ n → t.tlk m = s.tlk m) ∧ (∀ q, q ≠ p → t.tnode n q = s.tnode n q) ∧
        (t.tlk n).up = (s.tlk n).up.eraseP (fun v => v.pos = p.val)
      let signals := t = { s with tlks := t.tlks, links := t.links } ∧ others
      let brings (lost : Nat) : Prop := (f.bits.getLsbD 104 = false ∨ (s.flt.reactOf 0x53).blkrst = false) → others ∧
        b.enc = f.bits.extractLsb' 16 32 ∧ b.curA = f.bits.extractLsb' 48 16 ∧ b.curB = f.bits.extractLsb' 64 16 ∧
        b.vbridge = f.bits.extractLsb' 80 16 ∧ b.inputs = f.bits.extractLsb' 96 2 ∧ b.fbSeq = some (frameSeq f.bits) ∧ b.missing = 0 ∧
        b.validCyc = min 255 (a.validCyc + 1) ∧ b.delivered = true ∧
        (b.ncrc ≤ a.ncrc → b.ngap ≤ a.ngap → b.nstale ≤ a.nstale → f.bits.getLsbD 104 = false → signals ∧
          t.links.dirs[2].reports = s.links.dirs[2].reports ++ List.replicate lost (s.detection .control 0x51 6 i))
      (frameOk f = false → signals ∧ b = { a with plncrc := min 255 (a.plncrc + 1) } ∧ s.reports t .control 0x50 6 i) ∧
      (frameOk f = true → frameType f.bits ≠ 0x81 ∨ frameAddr f.bits ≠ p.val → t = { s with tlks := t.tlks } ∧ others ∧ b = a) ∧
      (frameOk f = true → frameType f.bits = 0x81 → frameAddr f.bits = p.val →
        (a.fbSeq = none → brings 0) ∧
        ∀ q, a.fbSeq = some q → q < 16 →
          let e := (frameSeq f.bits + 16 - q) % 16
          (1 ≤ e → e ≤ 8 → brings (e - 1)) ∧ (e = 0 ∨ 8 < e → signals ∧ b = a ∧ s.reports t .control 0x52 6 i))) ∧
  (∀ (n p : Fin 8) (s : State), s.clocked = true → s.hasTlk n = true → (s.tnode n p).configured = true → (s.tnode n p).lost = false →
    (s.flt.reactOf 0x53).blkrst = false →
    ((s.tlk n).state = .running ∨ (s.tlk n).state = .safe → 2 ≤ (s.tnode n p).missing → s.slotMissed n p = true →
      completes (.nodeLost n p) s fun t =>
        (t.tnode n p).lost = true ∧ (t.tnode n p).sendSafe = true ∧ (t.tnode n p).restoring = false ∧ (t.tlk n).state = (s.tlk n).state ∧
        (∀ c k, State.targetsNode n.val p.val (s.slot c k).cfg = true → (t.slot c k).state ≠ .running ∧ (t.slot c k).state ≠ .holding) ∧
        (∀ c k, State.targetsNode n.val p.val (s.slot c k).cfg = false → t.slot c k = s.slot c k) ∧
        s.reports t .control 0x53 6 (8 * n.val + p.val) ∧
        t = { s with tlks := t.tlks, cores := t.cores, fab := t.fab, links := t.links }) ∧
    ((s.tnode n p).missing < 2 ∨ s.slotMissed n p = false → completes (.nodeLost n p) s (· = s))) ∧
  (∀ (n p : Fin 8) (s : State), s.clocked = true → s.hasTlk n = true →
    completes (.nodeCtrlRestore n p) s (fun t => s.tnodeOnly n p t ∧
      (16 ≤ (s.tnode n p).validCyc ∧ s.targetsParked n.val p.val = true →
        t.tnode n p = { s.tnode n p with restoring := true, clearSeen := false, safeSent := false }) ∧
      (¬(16 ≤ (s.tnode n p).validCyc ∧ s.targetsParked n.val p.val = true) → t.tnode n p = { s.tnode n p with cerr := true })) ∧
    completes (.plncrcRead n p) s (fun t => t = { s with tlks := t.tlks, host := { s.host with rdata := t.host.rdata } } ∧
      (∀ m, m ≠ n → t.tlk m = s.tlk m) ∧ (∀ q, q ≠ p → t.tnode n q = s.tnode n q) ∧ t.tnode n p = { s.tnode n p with plncrc := 0 } ∧
      (let a := s.tnode n p
       a.plncrc < 256 → a.ncrc < 256 → a.ngap < 256 → a.nstale < 256 →
        t.host.rdata = [BitVec.ofNat 32 (16777216 * a.plncrc + 65536 * a.ncrc + 256 * a.ngap + a.nstale)])))

/-- For a present Tohevik port on a clocked part. TRAIN of a port with records that does not train starts from UNADDR with every node untrained; a
training one ignores it. A good IDENT of the position being addressed, with what the command says of it, makes it known and addresses the next of a longer chain, or begins CONFIG where
every node on it has its resources and its round trip; at any other it is ignored. A good CONFIG_ACK that echoes the record configures the position
with SEQ and counters 0, one with byte 6 = 1 loses it and reports 0x53, another is ignored; a port whose every position is configured or lost runs, or
sends SAFE in the safe state. A step that has taken 16 cycles loses the positions that did not answer; before that nothing changes. INJECTION_GO
without every permit of R241 sets CERR alone, with them it runs and reports 0x54; STOP ends it; INJCNT_READ returns and clears the count. -/
def Obligations.TohevikTraining : Prop :=
  ∀ (n : Fin 8) (s : State), s.clocked = true → s.hasTlk n = true →
    let k := s.tlk n
    let len := (s.chain n).length
    let signals (t : State) : Prop := t = { s with tlks := t.tlks, links := t.links } ∧ ∀ m, m ≠ n → t.tlk m = s.tlk m
    let took (p : Fin 8) (t : State) : Prop := (t.tlk n).up = k.up.eraseP (fun v => v.pos = p.val)
    let kept (p : Fin 8) (t : State) : Prop := ∀ q, q ≠ p → t.tnode n q = s.tnode n q
    let all (t : State) : Prop := ∀ q : Fin 8, q.val < len → (t.tnode n q).configured = true ∨ (t.tnode n q).lost = true
    (k.state = .training ∨ s.chain n = [] → completes (.train n) s (· = s)) ∧
    (k.state ≠ .training → s.chain n ≠ [] → completes (.train n) s fun t => s.tlkOnly n t ∧ (t.tlk n).state = .training ∧
      (t.tlk n).step = .unaddr ∧ (t.tlk n).stepCycles = 0 ∧ (t.tlk n).inj = k.inj ∧ (t.tlk n).cycle = k.cycle ∧
      ∀ p, (t.tnode n p).addressed = false ∧ (t.tnode n p).configured = false ∧ (t.tnode n p).lost = false) ∧
    (∀ (p : Fin 8) (flips : BitVec 240) (f : Frame) (u : State), s.receiveUp n p flips = some (f, u) → k.state = .training → frameOk f = true →
      frameAddr f.bits = p.val → frameType f.bits = 0x91 →
      let named : Instr := .ident n p (f.bits.extractLsb' 16 8) (f.bits.extractLsb' 24 8) (f.bits.extractLsb' 32 8) (f.bits.extractLsb' 40 8)
        (f.bits.extractLsb' 48 64) flips
      let a := { s.tnode n p with addressed := true, caps := f.bits.extractLsb' 16 32, uid := f.bits.extractLsb' 48 64 }
      (k.resetCycles = 0 → k.step = .address p.val → p.val + 1 < len →
        completes named s fun t => s.tlkOnly n t ∧ took p t ∧ (t.tlk n).step = .address (p.val + 1) ∧
          (t.tlk n).state = .training ∧ kept p t ∧ t.tnode n p = a) ∧
      (k.resetCycles = 0 → k.step = .address p.val → p.val + 1 = len → (s.tnode n p).configured = false → (s.tnode n p).lost = false →
        (∀ (q : Fin 8) (r : NodeRec), (s.chain n)[q.val]? = some r → 12 * (q.val + 1) + Config.cableDelay n ≤ 193 ∧
          r.supported (if q = p then a.caps else (s.tnode n q).caps) = true) →
        completes named s fun t => s.tlkOnly n t ∧ took p t ∧ (t.tlk n).step = .config ∧ (t.tlk n).state = .training ∧
          kept p t ∧ t.tnode n p = a) ∧
      (k.step ≠ .address p.val → completes named s fun t => s.tlkOnly n t ∧ took p t ∧ (t.tlk n).nodes = k.nodes ∧
        (t.tlk n).step = k.step ∧ (t.tlk n).state = k.state)) ∧
    (∀ (p : Fin 8) (flips : BitVec 240) (f : Frame) (u : State) (r : NodeRec), s.receiveUp n p flips = some (f, u) → frameOk f = true →
      frameAddr f.bits = p.val → frameType f.bits = 0x92 → (s.chain n)[p.val]? = some r → k.state = .training → k.step = .config →
      (s.tnode n p).lost = false → (s.tnode n p).configured = false →
      let named : Instr := .configAck n p (f.bits.extractLsb' 16 48) (f.bits.extractLsb' 64 8) flips
      let right := f.bits.extractLsb' 16 48 = r.config (decide (p.val + 1 = len))
      let status := payloadByte f.bits 6
      let others (t : State) : Prop := (¬all t → kept p t) ∧ ∀ q, q ≠ p →
        t.tnode n q = { s.tnode n q with missing := (t.tnode n q).missing, seenNow := (t.tnode n q).seenNow }
      (status = 0 → right → completes named s fun t => s.tlkOnly n t ∧ took p t ∧ others t ∧
        (t.tnode n p).configured = true ∧ (t.tnode n p).cseq = 0 ∧ (t.tnode n p).ncrc = 0 ∧ (t.tnode n p).ngap = 0 ∧
        (t.tnode n p).nstale = 0 ∧ (t.tnode n p).sentCmd = none ∧ (¬all t → (t.tlk n).state = .training) ∧
        (all t → (t.tlk n).state = if s.flt.safe then .safe else .running)) ∧
      (status = 1 → (s.flt.reactOf 0x53).blkrst = false → completes named s fun t => signals t ∧ took p t ∧ others t ∧
        t.tnode n p = { s.tnode n p with lost := true } ∧ s.reports t .control 0x53 6 (8 * n.val + p.val)) ∧
      (status ≠ 1 → ¬(status = 0 ∧ right) → completes named s fun t => s.tlkOnly n t ∧ took p t ∧
        (t.tlk n).nodes = k.nodes ∧ (t.tlk n).state = k.state)) ∧
    (k.stepCycles < 16 ∨ k.state ≠ .training → completes (.trainingTimeout n) s (· = s)) ∧
    (k.state = .training → k.resetCycles = 0 → 16 ≤ k.stepCycles → (s.flt.reactOf 0x53).blkrst = false →
      (k.step = .config → completes (.trainingTimeout n) s fun t => signals t ∧ (t.tlk n).state = (if s.flt.safe then .safe else .running) ∧
        ∀ p : Fin 8, p.val < len → ((s.tnode n p).configured = false → (t.tnode n p).lost = true) ∧
          ((s.tnode n p).configured = true → t.tnode n p = { s.tnode n p with missing := 0, seenNow := true })) ∧
      (∀ q, k.step = .address q → completes (.trainingTimeout n) s fun t => signals t ∧
        ∀ p : Fin 8, p.val < len → q ≤ p.val → (t.tnode n p).lost = true)) ∧
    (s.injectionOk n = false → completes (.injectionGo n) s fun t => s.tlkOnly n t ∧ t.tlk n = { k with inj := { k.inj with cerr := true } }) ∧
    (s.mayInject = true → k.inj.kind ≠ 2 → s.flt.safe = false → completes (.injectionGo n) s fun t => signals t ∧
      t.tlk n = { k with inj := { k.inj with active := true, seen := 0, lfsr := 0xACE1, held := none } } ∧
      s.reports t .control 0x54 6 (8 * n.val + k.inj.sel % 8)) ∧
    completes (.injectionStop n) s (fun t => s.tlkOnly n t ∧ t.tlk n = { k with inj := { k.inj with active := false, held := none } }) ∧
    completes (.injcntRead (some n)) s (fun t => t = { s with tlks := t.tlks, host := { s.host with rdata := [BitVec.ofNat 32 k.inj.count] } } ∧
      (∀ m, m ≠ n → t.tlk m = s.tlk m) ∧ t.tlk n = { k with inj := { k.inj with count := 0 } }) ∧
    (s.mgmtServed = true → completes (.injcntRead none) s fun t =>
      t = { s with links := { s.links with inj := { s.links.inj with count := 0 } },
                   host := { s.host with rdata := [BitVec.ofNat 32 s.links.inj.count] } })

/-- A node hears the frame of its own slot where the cycle reaches it and it has an address (log entry 104); where it hears none, nothing changes. One with a wrong
CRC or code counts NCRC and changes nothing else; one for another position changes nothing; any other is a keepalive. COMMAND with the last SEQ
applied, or an older one, changes no output; a new one applies duties, bridge and solenoids and counts the SEQs passed over; in its local safe state a
node applies none. CONFIG sets the record, SEQ 0 and the counters 0, and CONFIG_ACK follows. SAFE, and 54.0 µs without a keepalive of a node not
suspended, put the bridge at its SAFE state and the solenoids off; else that event changes nothing. RESTORE ends the local safe state with the outputs
as they are. SUSPEND holds the bridge state and the masked solenoids. UNADDR takes every node it reaches its address; ADDRESS gives the first one
without an address its position and IDENT follows. A node that misses upstream SYNC originates it. Nothing but the nodes concerned changes. -/
def Obligations.NodeBehaviour : Prop :=
  ∀ (n i : Fin 8) (flips : BitVec 240) (s : State),
    let d := s.node n i
    let becomes (c : Instr) (e : Node) : Prop := completes c s fun t => s.nodeOnly n i t ∧ t.node n i = e
    let outputs (e : Node) := (e.duty, e.bridge, e.solOn, e.solLevel)
    let now := s.times.passed
    (d.reached = false ∨ d.address = none → s.heard n i flips = none) ∧
    (s.heard n i flips = none → ∀ c, c = .command n i flips ∨ c = .config n i flips ∨ c = .restore n i flips ∨ c = .suspend n i flips ∨
      c = .safeFrame n i flips → completes c s (· = s)) ∧
    (∀ f : Frame, s.heard n i flips = some f →
      (frameOk f = false → ∀ c, c = .command n i flips ∨ c = .config n i flips ∨ c = .restore n i flips ∨ c = .suspend n i flips ∨
        c = .safeFrame n i flips → becomes c { d with ncrc := min 255 (d.ncrc + 1) }) ∧
      (frameOk f = true → d.address ≠ some (frameAddr f.bits) → ∀ c, c = .command n i flips ∨ c = .config n i flips ∨ c = .restore n i flips ∨
        c = .suspend n i flips → becomes c d) ∧
      (frameOk f = true → d.address = some (frameAddr f.bits) →
        (frameType f.bits = 0x01 → completes (.command n i flips) s fun t =>
          let e := t.node n i
          let k := (frameSeq f.bits + 16 - d.lastSeq % 16) % 16
          s.nodeOnly n i t ∧ e.suspended = false ∧ e.localSafe = d.localSafe ∧ e.address = d.address ∧ e.heardAt = now ∧
          (d.localSafe = true ∨ k = 0 ∨ 8 ≤ k → outputs e = outputs d ∧ e.lastSeq = d.lastSeq ∧ e.ngap = d.ngap) ∧
          (d.localSafe = false → 8 ≤ k → e.nstale = min 255 (d.nstale + 1)) ∧
          (d.localSafe = false → 1 ≤ k → k ≤ 7 → e.duty = f.bits.extractLsb' 16 48 ∧ e.bridge = (f.bits.extractLsb' 64 2).toNat ∧
            e.solOn = f.bits.extractLsb' 72 4 ∧ e.solLevel = f.bits.extractLsb' 80 64 ∧ e.lastSeq = frameSeq f.bits ∧
            e.ngap = min 255 (d.ngap + (k - 1)) ∧ e.nstale = d.nstale)) ∧
        (frameType f.bits = 0x12 → completes (.config n i flips) s fun t =>
          let e := t.node n i
          let b := payloadByte f.bits
          s.nodeOnly n i t ∧ e.motor = b 0 ∧ e.safe = b 1 ∧ e.solMask = b 2 ∧ e.inMask = b 3 ∧ e.enc = b 4 ∧ (e.last = true ↔ b 5 = 1) ∧
          e.lastSeq = 0 ∧ e.ncrc = 0 ∧ e.ngap = 0 ∧ e.nstale = 0 ∧ e.localSafe = d.localSafe ∧ e.solOn = d.solOn ∧ e.duty = d.duty ∧
          e.heardAt = now ∧ ∃ u, e.reply = .ack u) ∧
        (frameType f.bits = 0x13 → becomes (.restore n i flips)
          { d with localSafe := false, waitCommand := d.waitCommand || d.localSafe, heardAt := now }) ∧
        (frameType f.bits = 0x14 → completes (.suspend n i flips) s fun t =>
          let e := t.node n i
          s.nodeOnly n i t ∧ e.suspended = true ∧ e.localSafe = d.localSafe ∧ e.heardAt = now ∧ (d.localSafe = true → outputs e = outputs d) ∧
          (d.localSafe = false → e.bridge = payloadByte f.bits 0 % 4 ∧ e.solOn = d.solOn &&& f.bits.extractLsb' 24 4 ∧
            e.solLevel = d.solLevel))) ∧
      (frameOk f = true → frameType f.bits = 0x1F → frameAddr f.bits = 0xF → completes (.safeFrame n i flips) s fun t => s.nodeOnly n i t ∧
        (t.node n i).localSafe = true ∧ outputs (t.node n i) = (0, d.safe, 0, 0) ∧ (t.node n i).address = d.address ∧
        (t.node n i).heardAt = now)) ∧
    (d.suspended = false → d.heardAt + 10800 ≤ now → completes (.nodeLossTimeout n i) s fun t => s.nodeOnly n i t ∧
      (t.node n i).localSafe = true ∧ outputs (t.node n i) = (0, d.safe, 0, 0) ∧ (t.node n i).lastSeq = d.lastSeq) ∧
    (d.suspended = true ∨ now < d.heardAt + 10800 → becomes (.nodeLossTimeout n i) d) ∧
    (∀ ident, becomes (.nodePowerUp n i ident) { ident := ident } ∧
      ({ ident := ident } : Node).localSafe = true ∧ ({ ident := ident } : Node).address = none) ∧
    (missesUp i s.nodes[n.val] = false → completes (.nodeOriginatesUpstream n i) s (· = s)) ∧
    (missesUp i s.nodes[n.val] = true → completes (.nodeOriginatesUpstream n i) s fun t =>
      t = { s with nodes := t.nodes, tlks := t.tlks } ∧ (∀ m q, (m, q) ≠ (n, i) → t.node m q = s.node m q) ∧
      t.node n i = { d with originating := true } ∧ (∀ m, m ≠ n → t.tlk m = s.tlk m) ∧ (t.tlk n).sent = (s.tlk n).sent ∧
      (originator t.nodes[n.val] = some i →
        (t.tlk n).up.map (·.bits) = (s.tlk n).up.map (·.bits) ++ upstreamCycle t.nodes[n.val]) ∧
      (originator t.nodes[n.val] ≠ some i → t.tlks = s.tlks)) ∧
    (∀ f : Frame, (s.tlk n).slotArriving 0 flips = some f → frameOk f = true → frameType f.bits = 0x10 → frameAddr f.bits = 0xF →
      completes (.unaddr n flips) s fun t => t = { s with nodes := t.nodes } ∧ (∀ m q, m ≠ n → t.node m q = s.node m q) ∧
        ∀ q, ((s.node n q).reached = false → t.node n q = s.node n q) ∧
          ((s.node n q).reached = true → (t.node n q).address = none ∧ (t.node n q).localSafe = true ∧ (t.node n q).originating = true ∧
            (t.node n q).forwarding = false)) ∧
    (∀ f : Frame, (s.tlk n).addressArriving flips = some f → frameOk f = true → frameType f.bits = 0x11 → frameAddr f.bits = 0xE →
      d.address = none → (∀ j, j < i → (s.node n j).address ≠ none) →
      (d.reached = true → becomes (.address n flips) { d with address := some (payloadByte f.bits 0), reply := .ident }) ∧
      (d.reached = false → completes (.address n flips) s (· = s))) ∧
    ((∀ j, (s.node n j).address ≠ none) → completes (.address n flips) s (· = s))
/-- OTP_PROG_GO, where management registers are served, on the WORD, BIT and SRC written: for the first that applies of 0x01 an operation in
progress, 0x02 PUNLOCK not 0x5052_4F47, 0x03 a reserved word or bit, 0x04 a locked region and no repair, 0x05 a bit already solid 1, 0x06 a LOCK bit
whose region does not verify, 0x07 OTPOK 0, 0x08 VIN outside 3.0 V to 5.5 V, 0x09 VPP outside 2.375 V to 2.625 V with SRC = 0, 0x0A a rung other
than L0 or L1 or a transition, 0x0B a supply warning, it writes REASON, sets CERR and DONE and programs nothing; where none applies an operation on
that bit starts. PUNLOCK is 0 after it either way; the array and all else stay. -/
def Obligations.OtpProgramGo : Prop :=
  ∀ s : State, s.mgmtServed = true →
    completes .otpProgGo s fun t =>
      let o := s.otp
      let w := o.progWord
      let b := o.progBit
      let lock := (otpRegion (otpRegionOf w)).lockWord
      let c1 := o.op ≠ none
      let c2 := o.punlock ≠ 0x50524F47
      let c3 := (43 ≤ w ∧ w ≤ 45) ∨ (48 ≤ w ∧ w ≤ 63) ∨ (w = lock ∧ b ≠ 0) ∨ (w = 42 ∧ 3 ≤ b)
      let c4 := (o.word lock).tight.getLsbD 0 = true ∧ (o.word w).loose.getLsbD b = false
      let c5 := (o.word w).tight.getLsbD b = true
      let c6 := w = lock ∧ (o.regionMarginal (otpRegion (otpRegionOf w)) = true ∨ o.sealMatches (otpRegion (otpRegionOf w)) = false)
      let c7 := s.thm.otpok = false
      let c8 := s.env.vin < 3000 ∨ 5500 < s.env.vin
      let c9 := o.progSrc = false ∧ (s.env.vpp < 2375 ∨ 2625 < s.env.vpp)
      let cA := 2 ≤ s.ladder.rung ∨ s.ladder.phase ≠ .idle
      let cB := s.sys.warn = true
      let refused (why : Nat) : Prop := t = { s with otp := { o with punlock := 0, reason := why, cerr := true, done := true } }
      t.otp.punlock = 0 ∧
      (c1 → refused 0x01) ∧ (¬c1 → c2 → refused 0x02) ∧ (¬c1 → ¬c2 → c3 → refused 0x03) ∧ (¬c1 → ¬c2 → ¬c3 → c4 → refused 0x04) ∧
      (¬c1 → ¬c2 → ¬c3 → ¬c4 → c5 → refused 0x05) ∧ (¬c1 → ¬c2 → ¬c3 → ¬c4 → ¬c5 → c6 → refused 0x06) ∧
      (¬c1 → ¬c2 → ¬c3 → ¬c4 → ¬c5 → ¬c6 →
        (c7 → refused 0x07) ∧ (¬c7 → c8 → refused 0x08) ∧ (¬c7 → ¬c8 → c9 → refused 0x09) ∧ (¬c7 → ¬c8 → ¬c9 → cA → refused 0x0A) ∧
        (¬c7 → ¬c8 → ¬c9 → ¬cA → cB → refused 0x0B) ∧
        (¬c7 → ¬c8 → ¬c9 → ¬cA → ¬cB → ∃ op, t = { s with otp := { o with punlock := 0, op := some op } } ∧ op.word = w ∧ op.bit = b ∧ op.pulses = 0))

/-- OTP_PULSE_VERIFY of an operation on a word of the array: no bit of another word changes, no bit of any word goes from 1 to 0, and the values in
force, region states and key latch stay. A copy that fails its verify has up to three pulses; copy A is followed by copy B where B reads 0; the end
sets DONE, and FAIL where a copy still reads 0. Without an operation nothing changes. OTP_ABORT of an operation sets ABORTED and DONE with REASON
0x20, 0x21 or 0x22; only the cell under its pulse may change, to what log entry 8 leaves free; without one nothing changes. -/
def Obligations.OtpPulses : Prop :=
  (∀ (tight loose : Bool) (op : OtpOp) (s : State), s.otp.op = some op → op.word < 128 → op.bit < 32 →
    completes (.otpPulseVerify tight loose) s fun t =>
      let w := (elem? s.otp.array op.word).getD {}
      let v := (elem? t.otp.array op.word).getD {}
      t = { s with otp := { s.otp with op := t.otp.op, array := t.otp.array, done := t.otp.done, fail := t.otp.fail } } ∧
      (∀ k, k ≠ op.word → elem? t.otp.array k = elem? s.otp.array k) ∧
      (op.copyB = false → v.bTight = w.bTight ∧ v.bLoose = w.bLoose ∧ (∀ b, b ≠ op.bit → v.aTight.getLsbD b = w.aTight.getLsbD b) ∧
        v.aTight.getLsbD op.bit = (w.aTight.getLsbD op.bit || tight)) ∧
      (op.copyB = true → v.aTight = w.aTight ∧ v.aLoose = w.aLoose ∧ (∀ b, b ≠ op.bit → v.bTight.getLsbD b = w.bTight.getLsbD b) ∧
        v.bTight.getLsbD op.bit = (w.bTight.getLsbD op.bit || tight)) ∧
      (tight = false → op.pulses < 2 → t.otp.op = some { op with pulses := op.pulses + 1 } ∧ t.otp.done = s.otp.done) ∧
      (tight = true ∨ 2 ≤ op.pulses → op.copyB = false → w.bTight.getLsbD op.bit = false →
        t.otp.op = some { op with copyB := true, pulses := 0 } ∧ t.otp.done = s.otp.done) ∧
      (tight = true ∨ 2 ≤ op.pulses → op.copyB = true ∨ w.bTight.getLsbD op.bit = true →
        t.otp.op = none ∧ t.otp.done = true ∧
        t.otp.fail = (s.otp.fail || !(v.aTight.getLsbD op.bit && v.bTight.getLsbD op.bit)))) ∧
  (∀ (tight loose : Bool) (s : State), s.otp.op = none → completes (.otpPulseVerify tight loose) s (· = s)) ∧
  (∀ (cause : OtpAbortCause) (op : OtpOp) (s : State), s.otp.op = some op →
    completes (.otpAbort cause) s fun t => t = { s with otp := t.otp, free := s.free + 1 } ∧
      (∀ k, k ≠ op.word → elem? t.otp.array k = elem? s.otp.array k) ∧ t.otp.op = none ∧ t.otp.aborted = true ∧ t.otp.done = true ∧
      t.otp.reason = (match cause with
        | .supplyWarning => 0x20
        | .otpokLost => 0x21
        | .vinRange => 0x22) ∧ t.otp.force = s.otp.force ∧ t.otp.regions = s.otp.regions ∧ t.otp.keyLatch = s.otp.keyLatch) ∧
  (∀ (cause : OtpAbortCause) (s : State), s.otp.op = none → completes (.otpAbort cause) s (· = s))
/-- For every byte, the stored code word holds, from position 1 to 12, c0, c1, d0, c2, d1, d2, d3, c3, d4 to d7 with the check bits of the table, and
c4 above them, which makes the parity of all 13 even; 0x00, 0x01 and 0xFF have the check bits 0b0_0000, 0b1_0011 and 0b0_0011. Read as R247 gives, the
word delivers the byte clean; with any one of its 13 bits inverted it delivers the byte corrected; with any two inverted it is uncorrectable. -/
def Obligations.ByteCode : Prop :=
  (∀ d : BitVec 8,
    let w := eccEncode d
    let b (i : Nat) := d.getLsbD i
    let at' (i : Nat) := w.getLsbD (i - 1)
    (at' 1 = (b 0 ^^ b 1 ^^ b 3 ^^ b 4 ^^ b 6) ∧ at' 2 = (b 0 ^^ b 2 ^^ b 3 ^^ b 5 ^^ b 6) ∧ at' 4 = (b 1 ^^ b 2 ^^ b 3 ^^ b 7) ∧
      at' 8 = (b 4 ^^ b 5 ^^ b 6 ^^ b 7) ∧
      w.getLsbD 12 = (b 0 ^^ b 1 ^^ b 2 ^^ b 3 ^^ b 4 ^^ b 5 ^^ b 6 ^^ b 7 ^^ at' 1 ^^ at' 2 ^^ at' 4 ^^ at' 8)) ∧
    (at' 3 = b 0 ∧ at' 5 = b 1 ∧ at' 6 = b 2 ∧ at' 7 = b 3 ∧ at' 9 = b 4 ∧ at' 10 = b 5 ∧ at' 11 = b 6 ∧ at' 12 = b 7) ∧
    (List.range 13).foldl (fun p i => p ^^ w.getLsbD i) false = false ∧ eccRead w = (d, .clean) ∧
    (∀ i, i < 13 → eccRead (w ^^^ (1#13 <<< i)) = (d, .corrected)) ∧
    ∀ i j, i < 13 → j < 13 → i ≠ j → (eccRead (w ^^^ (1#13 <<< i) ^^^ (1#13 <<< j))).2 = .uncorrectable) ∧
  eccCheck (eccEncode 0x00) = 0b00000 ∧ eccCheck (eccEncode 0x01) = 0b10011 ∧ eccCheck (eccEncode 0xFF) = 0b00011

/-- In canonical memories, a byte written to a memory, its bank on, reads back clean, and every other byte of every memory reads as before; in a bank
that is not on the write changes nothing and the byte reads 0x00. A remap takes a free entry with the delivered word, of which the memory's plane
hears, or raises 0x13. A scrub cycle on a clean word goes on to the next and changes no data; on one with a correctable byte it raises 0x10 and holds
the delivered bytes, which the next cycle writes back clean (log entry 145). SCRUB_GO while busy, of an absent memory or past its end sets CERR; else it runs from
ADDR, in another plane by TYPE 0x28; ABORT ends it after its word, and SCRUB_DONE posts the summary. MEM_COMMAND_MESSAGE and MEM_RESULT_MESSAGE take
the oldest message for the memory and do what it asks or reports; without one, or with a result that reports something else than the command
names (log entry 10), they change nothing. TT_REGION counts a written region and its pass and
puts it under test for 384 cycles, its failing words reported, or asks its plane to. BANKPWR keeps the banks of the active port regions on, with CERR
where one would leave it. A bank that is on becomes ready. -/
def Obligations.MemoryCommands : Prop :=
  (∀ (ms : MemSys) (m a : Nat) (b : BitVec 8), ms.wf = true → m < 9 →
    (ms.reachable m a = true → (ms.writeByte m a b).readByte m a = (b, .clean)) ∧
    (∀ m' a', m' < 9 → (m', a') ≠ (m, a) → (ms.writeByte m a b).readByte m' a' = ms.readByte m' a') ∧
    (ms.reachable m a = false → ms.writeByte m a b = ms ∧ ms.readByte m a = (0, .clean))) ∧
  (∀ (m a : Nat) (s : State), a % 8 = 0 → m ≤ 4 → s.mem.remapped m a = none →
    let t := s.remapWord m a
    let d := fromManagement (memPlane m)
    (s.mem.remap.length < 16 → t = { s with mem := { s.mem with remap := s.mem.remap ++ [{ memsel := m, offset := a, data := s.mem.word64 m a }] }
                                            links := t.links } ∧
      t.links.dirs[d.val].tasks = s.links.dirs[d.val].tasks ++ [(m, .remap a)]) ∧
    (16 ≤ s.mem.remap.length → t = s.raise (memPlane m) 0x13 2 (wordIndex m a))) ∧
  (∀ s : State, s.mem.scrub.active = true → s.memClocked s.mem.scrub.run.memsel = true →
    let x := s.mem.scrub
    let k := x.run.memsel
    let r := s.mem.read k x.next 8
    (x.back = none → x.halt = false → x.next < x.limit → s.mem.scrubHolds = false →
      (r.corrected = [] → r.uncorrectable = [] → s.scrubCycle = { s with mem := { s.mem with scrub := { x with next := x.next + 8 } } }) ∧
      (r.corrected ≠ [] → r.uncorrectable = [] →
        let t := s.scrubCycle
        t.mem = { s.mem with scrub := t.mem.scrub } ∧ t.mem.scrub.back = some (k, x.next, r.bytes) ∧ t.mem.scrub.next = x.next + 8 ∧
        t.mem.scrub.run.corr = min 0xFFFF (x.run.corr + 1) ∧ t.mem.scrub.run.uncorr = x.run.uncorr ∧ t.mem.scrub.run.last = x.next ∧
        (remoteMem k = true → s.reports t (memPlane k) 0x10 2 (wordIndex k x.next)) ∧
        (remoteMem k = false → t.flt = (s.raise .management 0x10 2 (wordIndex k x.next)).flt))) ∧
    (∀ (m a : Nat) (bytes : List (BitVec 8)), s.mem.wf = true → x.back = some (m, a, bytes) → bytes.length = 8 → a % 8 = 0 → m < 9 →
      s.mem.reachable m a = true → s.env.weak.contains (m, a) = false →
      let t := s.scrubCycle
      t = { s with mem := t.mem } ∧ t.mem.scrub = { x with back := none } ∧
      (∀ j, j < 8 → t.mem.readByte m (a + j) = (bytes.getD j 0, .clean)) ∧
      ∀ m' a', m' < 9 → (m' ≠ m ∨ a' / 8 ≠ a / 8) → t.mem.readByte m' a' = s.mem.readByte m' a')) ∧
  (∀ s : State, s.mgmtServed = true →
    let x := s.mem.scrub
    let size := memSize s.sys.variant x.memsel
    let asks (m : Nat) (c : MemCommand) (t : State) : Prop :=
      (remoteMem m = false → t.links = s.links) ∧ (remoteMem m = true →
        t.links.dirs[(fromManagement (memPlane m)).val].tasks = s.links.dirs[(fromManagement (memPlane m)).val].tasks ++ [(m, c)])
    (x.busy = true ∨ size = 0 ∨ size < x.addr + x.len → completes .scrubGo s fun t =>
      t = { s with mem := { s.mem with scrub := { x with cerr := true } } }) ∧
    (x.busy = false → size ≠ 0 → x.addr + x.len ≤ size → completes .scrubGo s fun t =>
      t = { s with mem := { s.mem with scrub := { x with
              busy := true, abort := false, active := !remoteMem x.memsel, halt := false, next := x.addr, limit := x.addr + x.len, back := none,
              ueRaised := false, run := { memsel := x.memsel }, result := none, sum := { memsel := x.memsel } } }
                   links := t.links } ∧ asks x.memsel (.scrub x.addr (x.addr + x.len)) t) ∧
    (x.busy = false ∨ x.abort = true → completes .scrubAbort s (· = s)) ∧
    (x.busy = true → x.abort = false → completes .scrubAbort s fun t =>
      t = { s with mem := { s.mem with scrub := { x with abort := true, halt := x.halt || !remoteMem x.run.memsel } }, links := t.links } ∧
      asks x.run.memsel .scrubAbort t)) ∧
  (∀ s : State,
    let x := s.mem.scrub
    (x.active = false → x.result = none ∨ x.busy = false → completes .scrubDone s (· = s)) ∧
    (∀ y, x.active = false → x.busy = true → x.result = some y → completes .scrubDone s fun t =>
      t = { s with mem := { s.mem with trackers := t.mem.trackers, scrub := { x with
              busy := false, done := true, aborted := x.aborted || x.abort, abort := false, active := false, halt := false, back := none,
              result := none, sum := y } } } ∧
      (x.abort = true → t.mem.trackers = s.mem.trackers) ∧ (x.abort = false → y.memsel < 9 → elem? t.mem.trackers y.memsel = some [])) ∧
    (x.active = true → x.busy = true → remoteMem x.run.memsel = false → s.mgmtClocked = true → s.mem.tt.under = none →
      completes .scrubDone s fun t => t = { s with mem := t.mem, flt := t.flt, host := t.host, sys := t.sys, thm := t.thm, links := t.links } ∧
        t.mem.scrub.busy = false ∧ t.mem.scrub.done = true ∧ t.mem.scrub.active = false ∧
        t.mem.scrub.aborted = (x.aborted || x.abort))) ∧
  (∀ (m : Fin 9) (fails : List Nat) (s : State), (Instr.memCommandMessage m fails).wellFormed = true →
    let d := fromManagement (memPlane m.val)
    (remoteMem m.val = false ∨ s.nextTask d m.val = none → completes (.memCommandMessage m fails) s (· = s)) ∧
    (s.clocked = true → remoteMem m.val = true → ∀ g c, s.nextTask d m.val = some (g, c) →
      let u := s.takeTask d g
      let x := s.mem.scrub
      u = { s with links := u.links } ∧ u.links.dirs[d.val].tasks = s.links.dirs[d.val].tasks.drop 1 ∧
      (∀ first limit, c = .scrub first limit → x.busy = true → x.active = false → x.result = none → x.run.memsel = m.val →
        completes (.memCommandMessage m fails) s
          (· = { u with mem := { s.mem with scrub := { x with active := true, next := first, limit := limit } } })) ∧
      (c = .scrubAbort → x.active = true → x.run.memsel = m.val → completes (.memCommandMessage m fails) s
        (· = { u with mem := { s.mem with scrub := { x with halt := true } } })) ∧
      (∀ a, c = .remap a → completes (.memCommandMessage m fails) s (· = u)) ∧
      (∀ b, c = .testRegion b → s.mem.isWritten m.val (b * 256) = true → s.mem.tt.under = none →
        (fails = [] → completes (.memCommandMessage m fails) s
          (· = { u with mem := { s.mem with tt := { s.mem.tt with under := some (m.val, b), left := 384, failed := none } } })) ∧
        (∀ w, fails = [w] → completes (.memCommandMessage m fails) s fun t =>
          t = { s with mem := t.mem, links := t.links } ∧ t.mem.tt.under = some (m.val, b) ∧ t.mem.tt.failed = some (b * 256 + w * 8) ∧
          ∃ rest, t.links.dirs[(toManagement (memPlane m.val)).val].reports = s.links.dirs[(toManagement (memPlane m.val)).val].reports ++
            s.detection (memPlane m.val) 0x15 2 (wordIndex m.val (b * 256 + w * 8)) :: rest)))) ∧
  (∀ (m : Fin 9) (s : State),
    let d := toManagement (memPlane m.val)
    (∀ c, remoteMem m.val = false ∨ (∀ g, s.nextResult d m.val ≠ some (g, c)) → completes (.memResultMessage m c) s (· = s)) ∧
    (s.clocked = true → remoteMem m.val = true → ∀ g c, s.nextResult d m.val = some (g, c) →
      let u := s.takeMemResult d g
      let x := s.mem.scrub
      u = { s with links := u.links } ∧ u.links.dirs[d.val].results = s.links.dirs[d.val].results.drop 1 ∧
      (∀ y, c = .scrubbed y → x.busy = true → x.run.memsel = m.val → completes (.memResultMessage m c) s
        (· = { u with mem := { s.mem with scrub := { x with result := some y } } })) ∧
      (c = .tested none → completes (.memResultMessage m c) s (· = { u with mem := { s.mem with tt := { s.mem.tt with asked := false } } })) ∧
      (∀ a, c = .tested (some a) → completes (.memResultMessage m c) s
        (· = { u with mem := { s.mem with tt := { s.mem.tt with asked := false, resMem := m.val, resAddr := a } } })))) ∧
  (∀ (v : Word) (s : State), s.mgmtServed = true →
    completes (.memBankpwrWrite v) s fun t =>
      let held := s.top.image.regionBanks &&& s.mem.on
      let want : BitVec 16 := v.setWidth 16 &&& presentBanks s.sys.variant
      t = { s with mem := t.mem } ∧ t.mem.on = (want ||| held) ∧ t.mem.cerr = (s.mem.cerr || held &&& ~~~want != 0) ∧
      (1 < s.ladder.rung → t.mem.banks = s.mem.banks ∧ t.mem.lineStore = s.mem.lineStore) ∧
      (s.ladder.rung ≤ 1 → ∀ k : Fin 16, t.mem.banks[k.val] = if t.mem.on.getLsbD k.val then BankState.on else .off)) ∧
  (∀ (k : Fin 16) (s : State), completes (.bankReady k) s fun t =>
    (s.mem.banks[k.val] = .on → t = { s with mem := { s.mem with ready := s.mem.ready ||| (1#16 <<< k.val) } }) ∧
    (s.mem.banks[k.val] ≠ .on → t = s)) ∧
  (∀ (k b : Nat) (wrapped : Bool) (fails : List Nat) (s : State), s.mayTest = true → s.mem.chooseRegion = some ((k, b), wrapped) →
    (Instr.ttRegion fails).wellFormed = true →
    let tt := s.mem.tt
    let ahead : MemSys := { s.mem with tt := { tt with curMem := k, curRegion := b + 1 } }
    let last := ahead.nextRegion ahead.testAhead = none
    let counted (t : State) : Prop := t.mem.tt.regions = tt.regions + 1 ∧ s.mem.isWritten k (b * 256) = true ∧
      t.mem.tt.passes = tt.passes + (if wrapped then 1 else 0) + (if last then 1 else 0)
    (remoteMem k = true → completes (.ttRegion fails) s fun t => t = { s with mem := { s.mem with tt := t.mem.tt }, links := t.links } ∧
      counted t ∧ t.mem.tt.asked = true ∧ t.mem.tt.under = none ∧
      t.links.dirs[(fromManagement (memPlane k)).val].tasks = s.links.dirs[(fromManagement (memPlane k)).val].tasks ++ [(k, .testRegion b)]) ∧
    (remoteMem k = false → fails = [] → completes (.ttRegion fails) s fun t => t = { s with mem := { s.mem with tt := t.mem.tt } } ∧
      counted t ∧ t.mem.tt.under = some (k, b) ∧ t.mem.tt.left = 384 ∧ t.mem.tt.failed = none) ∧
    (remoteMem k = false → ∀ w, fails = [w] → completes (.ttRegion fails) s fun t =>
      t = { s with mem := { s.mem with tt := t.mem.tt }, flt := t.flt, host := t.host, sys := t.sys, thm := t.thm } ∧ counted t ∧
      t.mem.tt.under = some (k, b) ∧ t.mem.tt.failed = some (b * 256 + w * 8) ∧
      t.flt = (s.raise .management 0x15 2 (wordIndex k (b * 256 + w * 8))).flt)) ∧
  (∀ s : State, s.mayTest = false ∨ s.mem.chooseRegion = none → completes (.ttRegion []) s (· = s))

/-- SENSOR_EVALUATION at L0 to L3. A zone outside the sensor check whose count has no conversion, or one outside -60 to 150 °C, is on the model
after it, and so is one whose FORCE bit is set; a zone on the model publishes its model temperature, one under check RO6's reading and d, another its reading. T_die is the highest of
the six. OTPOK holds exactly where every zone is on its sensor, has left the start-up assumption and publishes 0 to 85 °C; its loss aborts an OTP
operation. In the normal regime warning is 105 °C left below 101, throttle 112 and 108, shutdown 120 and 116; in any other only shutdown, 118
and 114. Entering shutdown is fatal: safe state and recovery regime, with warning and throttle ended. Planes and memories stay. At deeper
rungs nothing changes.
SENSOR_CHECK at L0 to L3 with RO6 plausible and no check running: the sensor whose turn it is, its zone on its sensor, comes under check for
four gates, d the zone's published temperature less RO6's reading; it passes where the pattern does and the count moves by at most 2 %. With every zone
on the model, or RO6 implausible, nothing changes. MODEL_UPDATE moves pole 1 and 2 of each zone toward P·R with 1 and 2 °C/W, pole 3 toward
P·R3, and T_a only where a zone is on its sensor; T_cal is the mean of the six published temperatures and VREFD follows it over the sets in
force. A read of THM_IMPL returns the count and clears it. -/
def Obligations.ThermalCommands : Prop :=
  ((∀ (counts : Vector (BitVec 16) 7) (s : State), s.mgmtClocked = true →
     completes (.sensorEvaluation counts) s fun t =>
       let T := t.thm.tdie
       let level (held : Bool) (enter leave : Int) : Bool := if held then decide (leave * 65536 ≤ T) else decide (enter * 65536 ≤ T);
       (∀ z : Fin 6, s.inCheck z.val = false → s.thm.force.getLsbD z.val = true → t.thm.zones[z.val].onModel = true) ∧
       (∀ z : Fin 6, s.inCheck z.val = false →
         (∀ r, sensorReading s.cal.sets z.val counts[z.val] = some r → r < -60 * 65536 ∨ 150 * 65536 < r) → t.thm.zones[z.val].onModel = true) ∧
       (∀ (z : Fin 6) (r : Int), s.inCheck z.val = false → sensorReading s.cal.sets z.val counts[z.val] = some r →
         t.thm.zones[z.val].reading = r) ∧
       (∀ z : Fin 6, t.thm.zones[z.val].onModel = true → t.thm.zones[z.val].published = t.thm.modelOf z.val) ∧
       (∀ z : Fin 6, t.thm.zones[z.val].onModel = false → s.inCheck z.val = false →
         t.thm.zones[z.val].published = t.thm.zones[z.val].reading) ∧
       (∀ (z : Fin 6) (c : SensorCheck), t.thm.zones[z.val].onModel = false → s.thm.check = some c → c.zone = z.val →
         t.thm.zones[z.val].published = t.thm.ro6 + c.d) ∧
       (∀ z : Fin 6, t.thm.zones[z.val].published ≤ T) ∧ (∃ z : Fin 6, t.thm.zones[z.val].published = T) ∧
       (t.thm.otpok = true ↔ ∀ z : Fin 6, t.thm.zones[z.val].onModel = false ∧ t.thm.zones[z.val].fresh = false ∧
         0 ≤ t.thm.zones[z.val].published ∧ t.thm.zones[z.val].published ≤ 85 * 65536) ∧
       (t.thm.otpok = true → t.otp = s.otp) ∧
       (t.thm.otpok = false → s.otp.op ≠ none → t.otp.op = none ∧ t.otp.aborted = true ∧ t.otp.done = true ∧ t.otp.reason = 0x21) ∧
       t.thm.shut = (if s.regime = 1 then level s.thm.shut 120 116 else level s.thm.shut 118 114) ∧
       (s.regime ≠ 1 → t.thm.warn = false ∧ t.thm.throt = false) ∧
       (s.regime = 1 → (t.thm.shut = true → s.thm.shut = true) → t.thm.warn = level s.thm.warn 105 101 ∧ t.thm.throt = level s.thm.throt 112 108) ∧
       (t.thm.shut = true → s.thm.shut = false → t.flt.safe = true ∧ t.regime = 3 ∧ t.thm.warn = false ∧ t.thm.throt = false) ∧
       t.sys.vinReg = s.env.vin ∧ t.thm.force = s.thm.force ∧ t.ladder = s.ladder ∧ t.cal = s.cal ∧ t.top = s.top ∧ t.mem = s.mem ∧
         t.fab = s.fab ∧ t.axes = s.axes ∧ t.cores = s.cores ∧ t.tlks = s.tlks ∧ t.nodes = s.nodes ∧ t.ports = s.ports ∧ t.dma = s.dma ∧
         t.links = s.links ∧ t.env = s.env) ∧
   (∀ (counts : Vector (BitVec 16) 7) (s : State), s.mgmtClocked = false → completes (.sensorEvaluation counts) s (· = s))) ∧
  ((∀ (pattern : Bool) (low high : BitVec 16) (z : Fin 6) (s : State), s.mgmtClocked = true → s.thm.spareBad = false → s.thm.check = none →
     s.thm.checkNext = z.val → s.thm.zones[z.val].onModel = false →
     completes (.sensorCheck pattern low high) s fun t =>
       t = { s with thm := { s.thm with
         checkNext := (z.val + 1) % 6
         check := some { zone := z.val, left := 4, d := s.thm.zones[z.val].published - s.thm.ro6,
                         ok := pattern && decide (((high.toNat : Int) - low.toNat).natAbs * 100 ≤ 2 * low.toNat) } } }) ∧
   (∀ (pattern : Bool) (low high : BitVec 16) (s : State), s.thm.spareBad = true ∨ s.thm.check ≠ none ∨ (∀ z : Fin 6, s.thm.zones[z.val].onModel = true) →
     completes (.sensorCheck pattern low high) s (· = s)) ∧
   (∀ (p : Nat) (activity : Vector Nat 6) (s : State), s.mgmtClocked = true → 0 < (activity.toList.foldl (· + ·) 0) →
     completes (.modelUpdate p activity) s fun t =>
       let total := activity.toList.foldl (· + ·) 0
       let toward (x : Int) (mw r : Nat) (f : Int) : Int := x + (((mw * r * 2 ^ 48 / 100000 : Nat) : Int) - x) * f / 2 ^ 48
       t = { s with thm := { s.thm with milliwatts := t.thm.milliwatts, zones := t.thm.zones, rise3 := t.thm.rise3, ta := t.thm.ta }, cal := t.cal } ∧
       (∀ z : Fin 6, t.thm.zones[z.val] = { s.thm.zones[z.val] with
         rise1 := toward s.thm.zones[z.val].rise1 (p * activity[z.val] / total) 100 pole1Factor
         rise2 := toward s.thm.zones[z.val].rise2 (p * activity[z.val] / total) 200 pole2Factor }) ∧
       t.thm.rise3 = toward s.thm.rise3 p s.thm.r3 (pole3Factor s.thm.tau3) ∧
       ((∀ z : Fin 6, s.thm.zones[z.val].onModel = true) → t.thm.ta = s.thm.ta) ∧
       t.cal = { s.cal with sets := s.setsInForce, tcal := s.thm.tcal, vrefd := interpolateVrefd s.thm.tcal s.setsInForce } ∧
       (s.setsInForce = [] → t.cal.vrefd = 0)) ∧
   (∀ s : State, s.mgmtServed = true →
     completes .implRead s fun t => t.host = { s.host with rdata := [BitVec.ofNat 32 s.thm.impl] } ∧ t.thm = { s.thm with impl := 0 } ∧
       t = { s with host := t.host, thm := t.thm }))

/-- While the ADC domain delivers, CAL_ROUND with rounds enabled, and CAL_ROUND_START where a round is due, start a round with the spare; without EN,
during a round or with the domain off nothing changes. CAL_CHANNEL_DONE and ADC_STARTUP_CALIBRATION apply OFS = R_zero and GAIN where R_zero < R_ref, OFS ≤ 4096 and GAIN is 29491 to 36045; else
the channel keeps its values and its CAL_FAIL bit sets. A round goes from the spare to AIN0 upward; a failed spare abandons it. CAL_STORE writes W7,
the CRC-32 of the 28 bytes before it, of the set SETADDR names. CAL_SETDATA writes or reads the word named, W7 ignoring writes, and WORD advances
from 7 to 0. -/
def Obligations.CalibrationCommands : Prop :=
  let gain (vrefd : Int) (z r : Nat) : Nat := (divNearest (32768 * (1200000 + vrefd) * 65535) (1800000 * (r - z))).toNat
  let ok (k : Cal) (z r : Nat) : Prop := z < r ∧ z ≤ 4096 ∧ 29491 ≤ gain k.vrefd z r ∧ gain k.vrefd z r ≤ 36045
  let took (k : Cal) (z r : Nat) (x y : CalCh) : Prop :=
    (ok k z r → y = { x with ofs := z, gain := gain k.vrefd z r, tlast := k.tcal, done := true, subst := false }) ∧
    (¬ok k z r → y = { x with subst := false })
  let starts (s t : State) : Prop :=
    t = { s with cal := t.cal, free := t.free } ∧ t.cal.channel = some 16 ∧ t.cal.lastRound = s.cal.tcal ∧ t.cal.chans = s.cal.chans ∧
      t.cal.fail = s.cal.fail ∧ t.cal.fieldSets = s.cal.fieldSets ∧ ∀ p : Fin 4, (s.port p).arm.armed = true → t.cal.sense[p.val] = s.cal.sense[p.val]
  (∀ s : State, s.adcReady = true → s.cal.en = true → s.cal.channel = none →
    completes .calRound s (starts s) ∧
    (s.cal.period ≠ 0 ∨ 5 * 65536 ≤ (s.cal.tcal - s.cal.lastRound).natAbs → completes .calRoundStart s (starts s))) ∧
  (∀ s : State, s.cal.en = false ∨ s.cal.channel ≠ none → completes .calRound s (· = s) ∧ completes .calRoundStart s (· = s)) ∧
  (∀ s : State, s.adcReady = false → completes .calRound s (· = s) ∧ completes .calRoundStart s (· = s)) ∧
  (∀ (z r : Nat) (c : Fin 17) (s : State), s.adcRuns = true → s.cal.channel = some c.val →
    completes (.calChannelDone z r) s fun t =>
      t = { s with cal := { s.cal with channel := t.cal.channel, chans := t.cal.chans, fail := t.cal.fail } } ∧
      ((ok s.cal z r ∧ t.cal.fail = s.cal.fail) ∨ (¬ok s.cal z r ∧ t.cal.fail = s.cal.fail ||| 1#17 <<< c.val)) ∧
      took s.cal z r s.cal.chans[c.val] t.cal.chans[c.val] ∧
      (c.val = 16 → t.cal.channel = if 29491 ≤ gain s.cal.vrefd z r ∧ gain s.cal.vrefd z r ≤ 36045 ∧ z < r ∧ z ≤ 4096 then some 0 else none) ∧
      (c.val < 16 → t.cal.channel = if c.val + 1 < s.sys.variant.adcs then some (c.val + 1) else none) ∧
      (∀ d : Fin 17, d ≠ c → t.cal.channel = some d.val → t.cal.chans[d.val] = { s.cal.chans[d.val] with subst := true }) ∧
      (∀ d : Fin 17, d ≠ c → t.cal.channel ≠ some d.val → t.cal.chans[d.val] = s.cal.chans[d.val])) ∧
  (∀ (z r : Vector Nat 17) (s : State), s.adcRuns = false ∨ s.cal.started = true → completes (.adcStartupCalibration z r) s (· = s)) ∧
  (∀ (z r : Vector Nat 17) (s : State), s.adcRuns = true → s.cal.started = false →
    completes (.adcStartupCalibration z r) s fun t =>
      t = { s with cal := { s.cal with chans := t.cal.chans, fail := t.cal.fail, started := true, lastRound := s.cal.tcal } } ∧
      (∀ d : Fin 17, d.val < s.sys.variant.adcs ∨ d.val = 16 → took s.cal z[d.val] r[d.val] s.cal.chans[d.val] t.cal.chans[d.val]) ∧
      (∀ d : Fin 17, s.sys.variant.adcs ≤ d.val → d.val ≠ 16 → t.cal.chans[d.val] = s.cal.chans[d.val])) ∧
  (∀ (n : Fin 8) (s : State), s.mgmtServed = true → s.cal.setAddr = n.val →
    completes .calStore s fun t => t = { s with cal := { s.cal with fieldSets := t.cal.fieldSets } } ∧
      (∀ m : Fin 8, m ≠ n → t.cal.fieldSets[m.val] = s.cal.fieldSets[m.val]) ∧
      (∀ k : Fin 7, t.cal.fieldSets[n.val][k.val] = s.cal.fieldSets[n.val][k.val]) ∧
      t.cal.fieldSets[n.val][7] = crc32 ((List.finRange 7).flatMap fun k => leBytes 4 s.cal.fieldSets[n.val][k.val].toNat)) ∧
  (∀ (n k : Fin 8) (s : State), s.mgmtServed = true → s.cal.setAddr = n.val → s.cal.wordAddr = k.val →
    (∀ w : Word, completes (.calSetdataAccess (some w)) s fun t =>
      t = { s with cal := { s.cal with wordAddr := (k.val + 1) % 8, fieldSets := t.cal.fieldSets } } ∧
      (∀ (m j : Fin 8), (m, j) ≠ (n, k) → t.cal.fieldSets[m.val][j.val] = s.cal.fieldSets[m.val][j.val]) ∧
      t.cal.fieldSets[n.val][k.val] = if k.val = 7 then s.cal.fieldSets[n.val][k.val] else w) ∧
    completes (.calSetdataAccess none) s fun t =>
      t = { s with cal := { s.cal with wordAddr := (k.val + 1) % 8 }, host := { s.host with rdata := [s.cal.fieldSets[n.val][k.val]] } })

/-- CHIP_RESET with a cause, above L7 or past exit step A, with no chip-reset reaction owed and no OTP pulse: the part is in reset, at L0, in the start-up regime, no
image active, every unit of both planes at reset values; MGT_RSTCAUSE holds the causes, with those of a reset it joins. Without Power, records (now
PRERESET, not visible), keep RAM, remap mirror, usage entries, field sets and the topiary slots stay, exchanged where an image was active; Power
keeps none. The OTP array, the nodes, the board's levels and the queue stay. With no cause nothing changes. MGT_CMD with KEY 0x5253 and CMD 1 is
that reset with CMD, ignored otherwise; VCORE_FAULT at L0 to L4 that with VCORE; PCIE_HOT_RESET on a trained link that with HOT. BOOT in reset
makes the part run on a crystal that oscillates, else on a PCIe reference that is there, else wait for it; PCIE_REFERENCE_PRESENT ends the wait.
CRYSTAL_32K_START takes AON off its backup. -/
def Obligations.ChipResetAndBoot : Prop :=
  let awake (s : State) : Prop := s.ladder.rung ≠ 7 ∨ ∃ k, s.ladder.phase = .exit (k + 1)
  let resets (s t : State) (c : ResetCauses) : Prop :=
    t.sys.phase = .inReset ∧ t.ladder.rung = 0 ∧ t.ladder.phase = .idle ∧ t.regime = 0 ∧ t.top.activeValid = false ∧ t.top.image = {} ∧
    (s.sys.phase ≠ .inReset → t.sys.causes = c) ∧ (s.sys.phase = .inReset → t.sys.causes = orCauses s.sys.causes c) ∧
    (∀ p, t.port p = {}) ∧ (∀ n, t.axis n = {}) ∧ (∀ n, t.sprig n = {}) ∧ (∀ k, t.core k = {}) ∧ (∀ n, t.tlk n = {}) ∧ (∀ k, t.chan k = {}) ∧
    t.links = {} ∧ t.flt.safe = false ∧ t.sys.permit = false ∧ t.sys.resetOwed = none ∧ t.host.link = .down ∧ t.host.held = [] ∧
    t.mem.lineStore = {} ∧ t.mem.capture = Vector.replicate 4 {} ∧ t.otp.op = none ∧
    t.otp.array = s.otp.array ∧ t.nodes = s.nodes ∧ t.env = s.env ∧ t.dma.hostMem = s.dma.hostMem ∧ t.pending = s.pending ∧
    (c.power = false → t.flt.records = s.flt.records.map (fun r => { r with preReset := true, age := r.age + 1, visible := false }) ∧
      t.mem.keepMgmt = s.mem.keepMgmt ∧ t.mem.keepDma = s.mem.keepDma ∧ t.mem.remap = s.mem.remap ∧ t.mem.usage = s.mem.usage ∧
      t.cal.fieldSets = s.cal.fieldSets ∧
      (s.top.activeValid = true → t.mem.staged = s.mem.active ∧ t.mem.active = s.mem.staged) ∧
      (s.top.activeValid = false → t.mem.staged = s.mem.staged ∧ t.mem.active = s.mem.active)) ∧
    (c.power = true → t.flt.records = [] ∧ t.mem = {} ∧ t.cal = {})
  (∀ (c : ResetCauses) (s : State), awake s → anyCause c = true → s.sys.resetOwed = none → s.otp.op = none →
    completes (.chipReset c) s fun t => resets s t c) ∧
  (∀ (c : ResetCauses) (s : State), (anyCause c = false ∧ s.sys.resetOwed = none) ∨ ¬awake s → completes (.chipReset c) s (· = s)) ∧
  (∀ (c : ResetCauses) (source : Nat) (s : State), awake s → s.sys.resetOwed = some source → s.otp.op = none →
    completes (.chipReset c) s fun t => resets s t { c with fault := true } ∧ t.sys.causeSource = source) ∧
  (∀ (v : Word) (s : State), s.mgmtServed = true → s.sys.resetOwed = none → s.otp.op = none →
    completes (.mgtCmdReset v) s fun t =>
      (v.extractLsb' 16 16 = 0x5253 ∧ v.extractLsb' 0 8 = 1 → resets s t { cmd := true }) ∧
      (¬(v.extractLsb' 16 16 = 0x5253 ∧ v.extractLsb' 0 8 = 1) → t = s)) ∧
  (∀ s : State, s.sys.phase ≠ .inReset → s.ladder.rung ≤ 4 → s.sys.resetOwed = none → s.otp.op = none →
    completes .vcoreFault s fun t => resets s t { vcore := true }) ∧
  (∀ s : State, s.running = true → s.host.link ≠ .down → s.sys.resetOwed = none → s.otp.op = none →
    completes .pcieHotReset s fun t => resets s t { hot := true }) ∧
  (∀ (xtal : Bool) (s : State), s.sys.phase = .inReset →
    completes (.boot xtal) s fun t =>
      t.sys.phase = (if xtal || s.env.refck then .running else .waitReference) ∧
      t.sys.ref = (if xtal then .xi25 else if s.env.refck then .pcie else s.sys.ref) ∧
      (xtal = true ∨ s.env.refck = true → t.sys.pllLock = true) ∧ t.sys.variant = s.otp.variantOf ∧ t.sys.fallback = !s.otp.variantOk ∧
      t.sys.x32backup = !s.sys.x32ok ∧ t.sys.causes = s.sys.causes ∧ t.mem.ret = 0 ∧ t.mem.on = presentBanks s.otp.variantOf ∧
      (∀ k, k ∈ t.flt.records → k.preReset = true → k.visible = true) ∧ t.otp.array = s.otp.array ∧ t.otp.keyLatch = s.otp.deviceKey ∧
      (∀ p : Fin 4, p.val < s.otp.variantOf.ports → (t.port p).head.keyStore = s.otp.deviceKey) ∧
      t.fab = s.fab ∧ t.axes = s.axes ∧ t.cores = s.cores ∧ t.tlks = s.tlks ∧ t.nodes = s.nodes ∧ t.top = s.top ∧ t.ladder = s.ladder) ∧
  (∀ (xtal : Bool) (s : State), s.sys.phase ≠ .inReset → completes (.boot xtal) s (· = s)) ∧
  (∀ s : State, completes .pcieReferencePresent s fun t =>
      t = { s with env := { s.env with refck := true }, sys := t.sys, links := t.links } ∧ (s.sys.phase ≠ .waitReference → t.links = s.links) ∧
      t.sys = if s.sys.phase = .waitReference then { s.sys with phase := .running, ref := .pcie, pllLock := true } else s.sys) ∧
  (∀ s : State, s.ladder.rung ≤ 6 → completes .crystal32kStart s fun t => t = { s with sys := { s.sys with x32ok := true, x32backup := false } })

/-- PCIE_LINK_UP, with endpoint, reference and host bridge, takes the link to L0; PCIE_LINK_DOWN to down; PCIE_LINK_POWER_STATE a link that is up
to L1 or L2/L3 Ready; nothing else changes. Outside a test mode BYPASS, IDCODE and SAMPLE/PRELOAD change the port alone, shifting out 0, 0x21A4_0B4B bit 0
first, and what the balls gave, SAMPLE/PRELOAD loading the boundary register. EXTEST, and a test instruction while DEBUG_OFF is 0, set JTAGTM, so that a
regime other than recovery is the test regime; with DEBUG_OFF a test instruction is BYPASS. In a test mode BYPASS, IDCODE, JTAG_TEST_EXIT and
TRST_N low are a chip reset; outside one the exit changes nothing and TRST_N low the port alone. -/
def Obligations.PcieLinkAndTap : Prop :=
  (∀ s : State, s.running = true → s.sys.variant.pcie = true → s.sys.fallback = false → s.ladder.rung ≤ 2 → s.env.refck = true →
    completes .pcieLinkUp s fun t => t = { s with host := { s.host with link := .l0 } }) ∧
  (∀ s : State, s.sys.variant.pcie = false ∨ s.sys.fallback = true → completes .pcieLinkUp s (· = s)) ∧
  (∀ s : State, completes .pcieLinkDown s fun t => t = { s with host := { s.host with link := .down } }) ∧
  (∀ s : State, s.running = true → s.host.link ≠ .down →
    completes (.pcieLinkPowerState .l1) s (fun t => t = { s with host := { s.host with link := .l1 } }) ∧
    completes (.pcieLinkPowerState .l23) s fun t => t = { s with host := { s.host with link := .l23 } }) ∧
  (∀ s : State, s.sys.jtagtm = false →
    completes .bypass s (fun t => t = { s with host := { s.host with tap := .bypass, tapReset := false, tapOut := [false] } }) ∧
    completes .idcode s (fun t => t = { s with host := { s.host with tap := .idcode, tapReset := false, tapOut := t.host.tapOut } } ∧
      t.host.tapOut.length = 32 ∧ ∀ k : Fin 32, t.host.tapOut[k.val]? = some ((0x21A40B4B : Word).getLsbD k.val)) ∧
    (∀ bits : List Bool, completes (.samplePreload bits) s fun t => t.host.boundary = bits ∧ t.host.tap = .samplePreload ∧
      t = { s with free := s.free + 1, host := { s.host with tap := .samplePreload, tapReset := false, tapOut := t.host.tapOut, boundary := bits } }) ∧
    completes .jtagTestExit s (· = s) ∧
    completes .trstNLow s fun t => t = { s with host := { s.host with tap := .idcode, tapReset := true, tapOut := [] } }) ∧
  (∀ s : State,
    (completes .extest s fun t => t.sys = { s.sys with jtagtm := true } ∧ t.host.tap = .extest ∧ (s.thm.recovery = false → t.regime = 2) ∧
      (s.regime = 1 → t.thm.warn = false ∧ t.thm.throt = false) ∧
      t = { s with sys := t.sys, host := t.host, free := s.free + 1, thm := { s.thm with warn := t.thm.warn, throt := t.thm.throt } }) ∧
    (s.debugOff = false → completes .debugTestInstruction s fun t => t.sys = { s.sys with jtagtm := true } ∧
      (s.thm.recovery = false → t.regime = 2) ∧
      t = { s with sys := t.sys, host := t.host, thm := { s.thm with warn := t.thm.warn, throt := t.thm.throt } }) ∧
    (s.debugOff = true → s.sys.jtagtm = false → completes .debugTestInstruction s fun t =>
      t = { s with host := { s.host with tap := .bypass, tapReset := false, tapOut := [false] } })) ∧
  (∀ (i : Instr) (s : State), i = .bypass ∨ i = .idcode ∨ i = .jtagTestExit ∨ i = .trstNLow → s.sys.jtagtm = true →
    completes i s fun t => t.sys.phase = .inReset ∧ t.sys.jtagtm = false ∧ t.ladder.rung = 0 ∧ t.top.activeValid = false ∧
      t.host.tap = (if i = .bypass then .bypass else .idcode) ∧ t.host.boundary = s.host.boundary)

/-- Where the host bridge runs, with the PCIe link at L0: an aligned word written at the address of a register that triggers a row does what the
row's command does (16 registers named), no earlier request being held. A read over octal SPI of a latching or clearing register does what its row does and delivers 0xA5,
the row's word and a clean status byte (9 named). A write to a control- or data-plane address while those planes are not clocked changes
nothing and reads there give 0 with RUNG; an access to an absent unit reports 0x63 at its word and reads give 0 with ABSENT; an unassigned
address reads 0 and ignores writes; a piece of less than a word is discarded, and read, by PCIe, as its whole word. -/
def Obligations.RegisterSpaceByAddress : Prop :=
  let at' (a : Nat) : BitVec 32 := BitVec.ofNat 32 a
  let ready (s : State) : Prop := s.running = true ∧ s.ladder.rung ≤ 2 ∧ s.hasPcie = true ∧ s.host.link = .l0 ∧ s.host.held = []
  let same (s : State) (a : Nat) (w : Word) (c : Instr) : Prop :=
    ∃ u, exec c s = .next u ∧ exec (.registerWrite .pcie (at' a) (.write (leBytes 4 w.toNat))) s = .next u
  let reads (s : State) (a : Nat) (c : Instr) : Prop :=
    ∃ u w, exec c s = .next u ∧ u.host.rdata = [w] ∧ exec (.spiRead (at' a) 4) s =
      .next { u with host := { u.host with rdata := s.host.rdata, spiOut := 0xA5 :: leBytes 4 w.toNat ++ [0], spiStatus := 0 } }
  let plane (a : Nat) : Prop := (0x100000 ≤ a ∧ a < 0x106000) ∨ (0x108000 ≤ a ∧ a < 0x110000) ∨ (0x200000 ≤ a ∧ a < 0x240000) ∨
    (0x300000 ≤ a ∧ a < 0x308000) ∨ (0x400000 ≤ a ∧ a < 0x400800) ∨ (0x500000 ≤ a ∧ a < 0x540000) ∨ (0x600000 ≤ a ∧ a < 0x604000) ∨
    (0x700000 ≤ a ∧ a < 0x710000)
  let absent (v : Variant) (a : Nat) : Prop := (0x100000 + 0x100 * v.sprigs ≤ a ∧ a < 0x106000) ∨ (0x200000 + 0x10000 * v.cores ≤ a ∧ a < 0x240000) ∨
    (0x300000 + 0x1000 * v.tlks ≤ a ∧ a < 0x308000) ∨ (0x500000 + 0x10000 * v.engines ≤ a ∧ a < 0x540000) ∨
    (0x600000 + 0x1000 * v.ports ≤ a ∧ a < 0x604000) ∨ (0x700000 + 0x4000 * v.ports ≤ a ∧ a < 0x710000)
  let unassigned (a : Nat) : Prop := (0x60000 ≤ a ∧ a < 0x100000) ∨ (0x106000 ≤ a ∧ a < 0x108000) ∨ (0x110000 ≤ a ∧ a < 0x200000) ∨
    (0x810000 ≤ a ∧ a < 0x1000000)
  let gives (a : Nat) (stat : Byte) (s t : State) : Prop := exec (.spiRead (at' a) 4) s =
    .next { t with host := { t.host with spiOut := [0xA5, 0, 0, 0, 0, stat], spiStatus := stat, spiStat := t.host.spiStat ||| stat } }
  (∀ (w : Word) (s : State), ready s →
    (∀ v : BitVec 3, same s 0x20 (0x80000000 ||| v.setWidth 32) (.ladderGo v)) ∧
    (∀ b : Bool, same s 0x54 (if b then 1 else 0) (.mgtTestPermitWrite b)) ∧
    (∀ id : BitVec 16, same s 0x20030 (id.setWidth 32) (.fltAck id)) ∧ same s 0x20038 1 .fltSafeEnd ∧
    (∀ n : Fin 128, same s (0x20400 + 4 * n.val) w (.fltReactWrite (BitVec.ofNat 8 n.val) w)) ∧
    same s 0x40014 w (.calSetdataAccess (some w)) ∧ same s 0x5000C w (.topSdataWrite w) ∧ same s 0x800004 w (.memBankpwrWrite w) ∧
    reads s 0x40 .dipsRead ∧ reads s 0x20000 .fltHeadRead ∧ reads s 0x20034 .lostRead ∧ reads s 0x40014 (.calSetdataAccess none) ∧
    reads s 0x5000C .topSdataRead) ∧
  (∀ s : State, ready s → s.clocked = true →
    (∀ n : Fin 96, s.hasSprig n = true → same s (0x100004 + 0x100 * n.val) 1 (.sprigCommit n) ∧
      same s (0x100004 + 0x100 * n.val) 3 (.sprigCommitIdle n) ∧ same s (0x100004 + 0x100 * n.val) 4 (.sprigDiscard n)) ∧
    same s 0x10803C 1 .groupCommit ∧
    (∀ (n : Fin 8) (f : BitVec 2), same s (0x400000 + 0x100 * n.val) (f.setWidth 32) (.posFwdWrite n f)) ∧
    (∀ (c : Fin 4) (i : Fin 24), s.hasCore c = true → same s (0x201008 + 0x10000 * c.val + 0x100 * i.val) 1 (.slotRun c i) ∧
      same s (0x201008 + 0x10000 * c.val + 0x100 * i.val) 2 (.slotHold c i) ∧ same s (0x201008 + 0x10000 * c.val + 0x100 * i.val) 4 (.slotPark c i)) ∧
    (∀ n : Fin 8, s.hasTlk n = true → same s (0x300000 + 0x1000 * n.val) 1 (.train n)) ∧
    (∀ p : Fin 4, s.hasPort p = true → (∀ b : Bool, same s (0x700000 + 0x4000 * p.val) (if b then 3 else 1) (.arm p b)) ∧
      (∀ v : BitVec 16, same s (0x600014 + 0x1000 * p.val) (v.setWidth 32) (.pdpLowmarkWrite p v)) ∧
      same s (0x600020 + 0x1000 * p.val) 1 (.pdpCommit p) ∧ same s (0x600020 + 0x1000 * p.val) 3 (.pdpCommitSwap p) ∧
      same s (0x600020 + 0x1000 * p.val) 4 (.pdpDiscard p) ∧ same s (0x700218 + 0x4000 * p.val) 1 (.energyCommit p) ∧
      same s (0x700218 + 0x4000 * p.val) 2 (.energyDiscard p) ∧ reads s (0x700020 + 0x4000 * p.val) (.dropsloRead p)) ∧
    (∀ n : Fin 8, reads s (0x400008 + 0x100 * n.val) (.posloRead n)) ∧ reads s 0x108040 .fabTimeloRead ∧
    (∀ c : Fin 4, s.hasCore c = true → reads s (0x200004 + 0x10000 * c.val) (.ltimeloRead c))) ∧
  (∀ (a : Nat) (w : Word) (s : State), ready s → a % 4 = 0 →
    (s.clocked = false → plane a → exec (.registerWrite .pcie (at' a) (.write (leBytes 4 w.toNat))) s = .next s ∧ gives a 0x20 s s) ∧
    (s.clocked = true → absent s.sys.variant a →
      exec (.registerWrite .pcie (at' a) (.write (leBytes 4 w.toNat))) s = .next (s.raise .data 0x63 9 (a / 4)) ∧
      gives a 0x02 s (s.raise .data 0x63 9 (a / 4))) ∧
    (unassigned a → exec (.registerWrite .pcie (at' a) (.write (leBytes 4 w.toNat))) s = .next s ∧ gives a 0 s s)) ∧
  (∀ (a : Nat) (bytes : List Byte) (s : State), ready s → a < 0x1000000 → 1 ≤ bytes.length → a % 4 + bytes.length < 4 →
    exec (.registerWrite .pcie (at' a) (.write bytes)) s = .next s) ∧
  (∀ (a n : Nat) (s : State), ready s → a < 0x1000000 → 1 ≤ n → a % 4 + n ≤ 4 → ∃ t,
    exec (.registerWrite .pcie (at' a) (.read n)) s = .next t ∧ t.host.winData = leBytes 4 (s.busRead (a / 4 * 4)).1.toNat ∧
      t = { (s.busRead (a / 4 * 4)).2 with host := { (s.busRead (a / 4 * 4)).2.host with winData := t.host.winData, poison := t.host.poison } })

/-- With the PCIe link in L0 or L1. At L3, and at L0 to L2 behind an earlier held one (log entry 38), a register write or read, a window access and a configuration
request each join the held requests and take the link to L0; at L3, with WAKEEN.PCIE and the ladder at rest, they start
the exit at step E; outside a descent nothing else changes. HELD_REQUEST_SERVE at L0 takes the
oldest and serves it, a lone one as on arrival; deeper, or with none held, it changes nothing. Served configuration requests: dword 0 reads device and vendor ID, a
BAR0 write keeps 32 MiB alignment and nothing else changes, D3hot is taken without a change of rung. A window access where its bank is on the
variant and the planes are clocked reads or writes the line store, a read with an uncorrectable word poisoned; an absent bank raises 0x63 and reads
0; at a rung without those planes nothing is read or written; management I2C does not reach the window. -/
def Obligations.PcieRequests : Prop :=
  let carried (s : State) : Prop := s.running = true ∧ s.hasPcie = true ∧ (s.host.link = .l0 ∨ s.host.link = .l1)
  let holds (c : Instr) (h : Held) (s : State) : Prop := completes c s fun t =>
    t.host = { s.host with link := .l0, held := s.host.held ++ [h] } ∧ (s.ladder.phase ≠ .descend → t = { s with host := t.host, ladder := t.ladder }) ∧
    (s.ladder.wakeEn.getLsbD 2 = false → t.ladder = s.ladder) ∧
    (s.ladder.wakeEn.getLsbD 2 = true → s.ladder.phase = .idle → t.ladder.phase = .exit 4 ∧ t.ladder.wakeSrc = 0x04 ∧ t.ladder.rung = 3)
  let serves (c : Instr) (h : Held) (s : State) : Prop := s.host.held = [h] → s.host.link = .l0 →
    ∃ u, exec c { s with host := { s.host with held := [] } } = .next u ∧ exec .heldRequestServe s = .next u
  (∀ (a : BitVec 32) (bytes : List Byte) (n : Nat) (o : BitVec 24) (x : WinAccess) (r : ConfigReg) (w : Option Word) (s : State),
    carried s → (Instr.registerWrite .pcie a (.write bytes)).wellFormed = true → (Instr.registerWrite .pcie a (.read n)).wellFormed = true →
    (Instr.hostWindowAccess .pcie o x).wellFormed = true →
    let each (f : Instr → Held → Prop) : Prop := f (.registerWrite .pcie a (.write bytes)) (.write a bytes) ∧
      f (.registerWrite .pcie a (.read n)) (.read a n) ∧ f (.hostWindowAccess .pcie o x) (.window o x) ∧
      f (.pcieConfigurationRequest r w) (.config r w)
    (s.ladder.rung = 3 → each fun c h => holds c h s) ∧
    (s.ladder.rung ≤ 2 → s.host.held ≠ [] → each fun c h =>
      completes c s (· = { s with host := { s.host with link := .l0, held := s.host.held ++ [h] } })) ∧
    (s.ladder.rung = 0 → each fun c h => serves c h s)) ∧
  (∀ (h : Held) (rest : List Held) (s : State), s.running = true → s.ladder.rung = 0 → s.host.held = h :: rest →
    completes .heldRequestServe s (· = State.serveHeld h { s with host := { s.host with held := rest } })) ∧
  (∀ s : State, s.ladder.rung ≠ 0 ∨ s.host.held = [] → completes .heldRequestServe s (· = s)) ∧
  (∀ s : State, carried s → s.ladder.rung ≤ 2 → s.host.held = [] →
    completes (.pcieConfigurationRequest (.header 0) none) s (fun t => t = { s with host := { s.host with link := .l0, rdata := t.host.rdata } } ∧
      t.host.rdata = [if s.sys.variant = .p224 then 0x22401F3C else 0x44801F3C]) ∧
    (∀ w : Word, completes (.pcieConfigurationRequest (.header 4) (some w)) s fun t =>
      t = { s with host := { s.host with link := .l0, bar0 := w &&& 0xFE000000 } }) ∧
    completes (.pcieConfigurationRequest .pmControl (some 3)) s fun t => t = { s with host := { s.host with link := .l0, d3hot := true } }) ∧
  (∀ (o : BitVec 24) (s : State), carried s → s.host.held = [] → s.ladder.rung ≤ 1 → s.clocked = true → o.toNat < 0x800000 →
    let here := o.toNat / 0x80000 < s.sys.variant.banks
    (∀ bytes : List Byte, 1 ≤ bytes.length → bytes.length ≤ 8 → completes (.hostWindowAccess .pcie o (.write bytes)) s fun t =>
      (here → t = { s with host := { s.host with link := .l0 }, mem := s.mem.writeBytes 0 o.toNat bytes }) ∧
      (¬here → t = { s with host := t.host, links := t.links } ∧ s.reports t .data 0x63 9 ((0x1000000 + o.toNat) / 4))) ∧
    (∀ n : Nat, 1 ≤ n → n ≤ 8 → completes (.hostWindowAccess .pcie o (.read n)) s fun t =>
      (here → t.host.winData = (s.mem.read 0 o.toNat n).bytes ∧ (t.host.poison = true ↔ (s.mem.read 0 o.toNat n).uncorrectable ≠ []) ∧
        t.mem.lineStore = s.mem.lineStore) ∧
      (¬here → t.host.winData = List.replicate n 0 ∧ t.host.poison = false ∧ t = { s with host := t.host, links := t.links } ∧
        s.reports t .data 0x63 9 ((0x1000000 + o.toNat) / 4)))) ∧
  (∀ (o : BitVec 24) (x : WinAccess) (s : State), carried s → s.host.held = [] → s.ladder.rung = 2 → (Instr.hostWindowAccess .pcie o x).wellFormed = true →
    completes (.hostWindowAccess .pcie o x) s fun t => t = { s with host := t.host } ∧
      (∀ n, x = .read n → t.host.winData = List.replicate n 0)) ∧
  (∀ (o : BitVec 24) (x : WinAccess) (s : State), (Instr.hostWindowAccess .i2c o x).wellFormed = true →
    completes (.hostWindowAccess .i2c o x) s (· = s))

/-- Octal SPI at L0 to L2: a misaligned register-space transaction and one that crosses 0x0100_0000 set FRAME and make no access; STATUS delivers
SPI_STAT and clears it; a READ past its wait limit gives 0xE1 and TIMEOUT. Deeper, nothing is written and what the host reads is free. Management
I2C at L0 to L3 with SCL not held: an offset outside the management plane or not aligned is not acknowledged and applies nothing, reads there
give 0, and a STOP before a word's fourth byte discards it. At L4 to L6 a word at MGT_WAKEEN is served and the rung stays; an access to
another offset wakes the part and is held with WAKEEN.I2C, and without it is not acknowledged, or reads 0. At L7 there is no answer; while SCL
is held no other access starts. -/
def Obligations.SpiAndI2c : Prop :=
  (∀ (a : BitVec 32) (bytes : List Byte) (s : State), s.running = true → s.ladder.rung ≤ 2 → 1 ≤ bytes.length → bytes.length ≤ 256 →
    a.toNat < 0x1000000 → a.toNat % 4 ≠ 0 ∨ bytes.length % 4 ≠ 0 ∨ 0x1000000 < a.toNat + bytes.length →
    completes (.spiWrite a bytes) s (fun t =>
      t = { s with host := { s.host with spiOut := [], spiStatus := 0x10, spiStat := s.host.spiStat ||| 0x10 } }) ∧
    completes (.spiRead a bytes.length) s fun t =>
      t = { s with free := s.free + 1, host := { s.host with spiOut := t.host.spiOut, spiStatus := 0x10, spiStat := s.host.spiStat ||| 0x10 } } ∧
      t.host.spiOut.length = bytes.length + 2 ∧ t.host.spiOut.head? = some 0xA5 ∧ t.host.spiOut.getLast? = some 0x10) ∧
  (∀ s : State, s.running = true → s.ladder.rung ≤ 2 →
    completes .spiStatus s (fun t => t = { s with host := { s.host with spiOut := [s.host.spiStat], spiStat := 0 } }) ∧
    completes .spiReadTimeout s fun t =>
      t = { s with host := { s.host with spiOut := [0xE1, 0x04], spiStatus := 0x04, spiStat := s.host.spiStat ||| 0x04 } }) ∧
  (∀ (a : BitVec 32) (bytes : List Byte) (s : State), 3 ≤ s.ladder.rung → 1 ≤ bytes.length → bytes.length ≤ 256 →
    completes (.spiWrite a bytes) s (· = s) ∧ completes (.registerWrite .spi a (.write bytes)) s (· = s) ∧
    completes (.spiRead a bytes.length) s fun t => t = { s with free := s.free + 1, host := { s.host with spiOut := t.host.spiOut } } ∧
      t.host.spiOut.length = bytes.length + 2) ∧
  (∀ (o : BitVec 24) (bytes : List Byte) (s : State), s.sys.phase ≠ .inReset → s.ladder.rung ≤ 3 → s.host.i2cHold = .none →
    let reached := o.toNat < 0x60000 ∨ (0x800000 ≤ o.toNat ∧ o.toNat < 0x810000)
    (¬reached ∨ o.toNat % 4 ≠ 0 → completes (.i2cWrite o bytes) s fun t => t = { s with host := { s.host with i2cOut := [], i2cAck := false } }) ∧
    (reached → o.toNat % 4 = 0 → bytes.length < 4 → completes (.i2cWrite o bytes) s fun t =>
      t = { s with host := { s.host with i2cOut := [], i2cAck := true } }) ∧
    (¬reached → completes (.i2cRead o 4) s fun t => t = { s with host := { s.host with i2cOut := [0, 0, 0, 0], i2cAck := true } }) ∧
    (∀ w : Word, o = 0x02C → completes (.i2cWrite o (leBytes 4 w.toNat)) s fun t =>
      t.ladder = { s.ladder with wakeEn := (w.setWidth 7 &&& 0x1E) ||| 0x61 } ∧
      t = { s with ladder := t.ladder, host := { s.host with i2cOut := [], i2cAck := true } })) ∧
  (∀ (o : BitVec 24) (bytes : List Byte) (n : Nat) (s : State), s.running = true → 4 ≤ s.ladder.rung → s.ladder.rung ≤ 6 → s.host.i2cHold = .none →
    (∀ w : Word, completes (.i2cWrite 0x2C (leBytes 4 w.toNat)) s fun t =>
      t.ladder = { s.ladder with wakeEn := (w.setWidth 7 &&& 0x1E) ||| 0x61 } ∧
      t = { s with ladder := t.ladder, host := { s.host with i2cOut := [], i2cAck := true } }) ∧
    completes (.i2cRead 0x2C 4) s (fun t =>
      t = { s with host := { s.host with i2cOut := leBytes 4 s.ladder.wakeEn.toNat, i2cAck := true } }) ∧
    (0x34 ≤ o.toNat → bytes ≠ [] → s.ladder.phase = .idle → s.ladder.wakeEn.getLsbD 1 = true →
      completes (.i2cWrite o bytes) s fun t => t = { s with ladder := t.ladder, host := t.host } ∧ t.ladder.wakeSrc = 0x02 ∧
        t.ladder.phase = .exit (Ladder.firstStep s.ladder.rung) ∧ t.ladder.rung = s.ladder.rung ∧ t.host.i2cHold = .write o bytes) ∧
    (0x34 ≤ o.toNat → o.toNat % 4 = 0 → 0 < n → s.ladder.phase = .idle → s.ladder.wakeEn.getLsbD 1 = true →
      completes (.i2cRead o n) s fun t => t = { s with ladder := t.ladder, host := t.host } ∧ t.ladder.wakeSrc = 0x02 ∧
        t.ladder.phase = .exit (Ladder.firstStep s.ladder.rung) ∧ t.host.i2cHold = .read o n ∧ t.host.i2cOut = []) ∧
    (0x34 ≤ o.toNat → bytes ≠ [] → s.ladder.wakeEn.getLsbD 1 = false →
      completes (.i2cWrite o bytes) s (fun t => t = { s with host := { s.host with i2cOut := [], i2cAck := false } }) ∧
      completes (.i2cRead o n) s fun t => t = { s with host := { s.host with i2cOut := List.replicate n 0, i2cAck := true } })) ∧
  (∀ (o : BitVec 24) (bytes : List Byte) (n : Nat) (s : State),
    (s.ladder.rung = 7 → s.host.i2cHold = .none →
      completes (.i2cWrite o bytes) s fun t => t = { s with host := { s.host with i2cOut := [], i2cAck := false } }) ∧
    (s.host.i2cHold ≠ .none → completes (.i2cWrite o bytes) s (· = s) ∧ completes (.i2cRead o n) s (· = s)))

/-- From every state, reached or not, in which every memory of the part and the host's is in canonical form, the wake sources that are always enabled
read enabled, the collector holds at most 32 records and one reserved one, and the remap table at most 16 entries, a step that answers a next
state answers one in which all of this holds, and takes at most the front command off the queue. -/
def Obligations.StepKeepsSound : Prop :=
  ∀ s t : State, s.sound → step s = .next t → t.sound ∧ t.pending = s.pending.tail

/-- State.reset has the invariant of StepKeepsSound. It is the part in a Power reset: the queue empty, at L0 with no transition, no image active, no
record, no safe state, MGT_RSTCAUSE Power alone, THM_STAT 0x0550_003F (85 °C, start-up, every zone on the model), CAL_CTRL 0x0001_03E8,
MGT_WAKEEN 0x6F, memories without contents, both planes' units at reset values. -/
def Obligations.ResetState : Prop :=
  let s := State.reset
  s.sound ∧ s.pending = [] ∧ s.sys.phase = .inReset ∧ s.ladder.rung = 0 ∧ s.ladder.phase = .idle ∧ s.top.activeValid = false ∧
  s.top.state = .idle ∧ s.flt.records = [] ∧ s.flt.safe = false ∧ s.sys.causeWord = 1 ∧ s.thmStat = 0x0550003F ∧
  s.cal.ctrlWord = 0x000103E8 ∧ s.mgtWord 0x2C = 0x6F ∧ s.mem.lineStore = {} ∧ s.mem.keepDma = {} ∧ s.mem.staged = {} ∧
  (∀ p, s.port p = {}) ∧ (∀ c, s.core c = {}) ∧ (∀ n, s.tlk n = {}) ∧ (∀ n, s.axis n = {}) ∧ (∀ n, s.sprig n = {}) ∧ ∀ c, s.chan c = {}
end

