-- ==== Sys2Proof/Laws/Memory.lean ====
section
/-!
SUPPORT. The memories: a read after a write of a sparse list, the canonical form that every operation keeps, the code of R246 and R247.
-/

namespace Sys2Proof.Machine

/-! ## Sparse lists -/

/-- The keys of a list lie above a bound and rise, and no value is 0. -/
def canonicalFrom {w : Nat} : Nat → List (Nat × BitVec w) → Prop
  | _, [] => True
  | lo, (k, v) :: rest => lo ≤ k ∧ v ≠ 0 ∧ canonicalFrom (k + 1) rest

theorem canonicalFrom_mono {w : Nat} {lo lo' : Nat} (h : lo' ≤ lo) {l : List (Nat × BitVec w)} (c : canonicalFrom lo l) :
    canonicalFrom lo' l := by
  cases l with
  | nil => trivial
  | cons x rest => exact ⟨Nat.le_trans h c.1, c.2⟩

theorem canonical_cons {w : Nat} (k : Nat) (v : BitVec w) (rest : List (Nat × BitVec w)) :
    canonical ((k, v) :: rest) = true ↔ v ≠ 0 ∧ canonicalFrom (k + 1) rest := by
  induction rest generalizing k v with
  | nil => simp [canonical, canonicalFrom]
  | cons x rest ih =>
    obtain ⟨k', v'⟩ := x
    simp only [canonical, Bool.and_eq_true, bne_iff_ne, decide_eq_true_eq, ih, canonicalFrom]
    constructor
    · rintro ⟨⟨a, b⟩, c, d⟩; exact ⟨a, b, c, d⟩
    · rintro ⟨a, b, c, d⟩; exact ⟨⟨a, b⟩, c, d⟩

theorem canonical_iff {w : Nat} (l : List (Nat × BitVec w)) : canonical l = true ↔ canonicalFrom 0 l := by
  cases l with
  | nil => simp [canonical, canonicalFrom]
  | cons x rest => obtain ⟨k, v⟩ := x; simp [canonical_cons, canonicalFrom]

theorem place_from {w : Nat} (l : List (Nat × BitVec w)) (lo a : Nat) (v : BitVec w) (c : canonicalFrom lo l) (h : lo ≤ a) :
    canonicalFrom lo (place l a v) := by
  induction l generalizing lo with
  | nil => unfold place; split <;> simp_all [canonicalFrom]
  | cons x rest ih =>
    obtain ⟨k, y⟩ := x
    obtain ⟨h1, h2, h3⟩ := c
    unfold place
    split
    · split
      · exact ⟨h1, h2, h3⟩
      · exact ⟨h, ‹_›, by omega, h2, h3⟩
    · split
      · subst_vars
        split
        · exact canonicalFrom_mono (by omega) h3
        · exact ⟨h, ‹_›, h3⟩
      · exact ⟨h1, h2, ih (k + 1) h3 (by omega)⟩

/-- Writing a value keeps the canonical form. -/
theorem place_canonical {w : Nat} {l : List (Nat × BitVec w)} (a : Nat) (v : BitVec w) (c : canonical l = true) :
    canonical (place l a v) = true :=
  (canonical_iff _).2 (place_from l 0 a v ((canonical_iff _).1 c) (Nat.zero_le a))

theorem filter_from {w : Nat} (p : Nat × BitVec w → Bool) (l : List (Nat × BitVec w)) (lo : Nat) (c : canonicalFrom lo l) :
    canonicalFrom lo (l.filter p) := by
  induction l generalizing lo with
  | nil => trivial
  | cons x rest ih =>
    obtain ⟨h1, h2, h3⟩ := c
    simp only [List.filter]
    split
    · exact ⟨h1, h2, ih _ h3⟩
    · exact canonicalFrom_mono (by omega) (ih _ h3)

/-- Clearing a range keeps the canonical form. -/
theorem clearRange_canonical {w : Nat} {l : List (Nat × BitVec w)} (lo hi : Nat) (c : canonical l = true) :
    canonical (clearRange l lo hi) = true :=
  (canonical_iff _).2 (filter_from _ l 0 ((canonical_iff _).1 c))

theorem look_below {w : Nat} (l : List (Nat × BitVec w)) (lo a : Nat) (c : canonicalFrom lo l) (h : a < lo) : look l a = 0 := by
  induction l generalizing lo with
  | nil => rfl
  | cons x rest ih =>
    obtain ⟨k, y⟩ := x
    obtain ⟨h1, _, h3⟩ := c
    simp only [look]
    rw [if_neg (by omega)]
    exact ih _ h3 (by omega)

/-- A read after a write: the value at the place written, every other place as before. -/
theorem look_place_from {w : Nat} (l : List (Nat × BitVec w)) (lo a b : Nat) (v : BitVec w) (c : canonicalFrom lo l) :
    look (place l a v) b = if a = b then v else look l b := by
  induction l generalizing lo with
  | nil =>
    unfold place
    split <;> rename_i hv
    · split <;> simp_all [look]
    · simp [look]
  | cons x rest ih =>
    obtain ⟨k, y⟩ := x
    obtain ⟨h1, h2, h3⟩ := c
    unfold place
    split <;> rename_i hk
    · split <;> rename_i hv
      · by_cases e : a = b
        · subst e; subst hv
          simp only [look, if_neg (show ¬ k = a by omega), if_true]
          exact look_below rest _ _ h3 (by omega)
        · simp [e]
      · simp [look]
    · split <;> rename_i hak
      · subst hak
        split <;> rename_i hv
        · by_cases e : a = b
          · subst e; subst hv; simp [look_below rest _ _ h3 (Nat.lt_succ_self a)]
          · simp [look, e]
        · by_cases e : a = b <;> simp [look, e]
      · simp only [look, ih _ h3]
        by_cases e : a = b
        · subst e; simp [show ¬ k = a by omega]
        · simp [e]

theorem look_place {w : Nat} {l : List (Nat × BitVec w)} (a b : Nat) (v : BitVec w) (c : canonical l = true) :
    look (place l a v) b = if a = b then v else look l b :=
  look_place_from l 0 a b v ((canonical_iff _).1 c)

/-! ## Written bits -/

/-- Numbers that rise from a bound. -/
def risingFrom : Nat → List Nat → Prop
  | _, [] => True
  | lo, k :: rest => lo ≤ k ∧ risingFrom (k + 1) rest

theorem risingFrom_mono {lo lo' : Nat} (h : lo' ≤ lo) {l : List Nat} (c : risingFrom lo l) : risingFrom lo' l := by
  cases l with
  | nil => trivial
  | cons x rest => exact ⟨Nat.le_trans h c.1, c.2⟩

theorem rising_cons (k : Nat) (rest : List Nat) : rising (k :: rest) = true ↔ risingFrom (k + 1) rest := by
  induction rest generalizing k with
  | nil => simp [rising, risingFrom]
  | cons x rest ih =>
    simp only [rising, Bool.and_eq_true, decide_eq_true_eq, ih, risingFrom]
    exact Iff.rfl

theorem rising_iff (l : List Nat) : rising l = true ↔ risingFrom 0 l := by
  cases l with
  | nil => simp [rising, risingFrom]
  | cons x rest => simp [rising_cons, risingFrom]

theorem insertNat_from (l : List Nat) (lo a : Nat) (c : risingFrom lo l) (h : lo ≤ a) : risingFrom lo (insertNat l a) := by
  induction l generalizing lo with
  | nil => exact ⟨h, trivial⟩
  | cons k rest ih =>
    obtain ⟨h1, h2⟩ := c
    unfold insertNat
    split
    · exact ⟨h, by omega, h2⟩
    · split
      · exact ⟨h1, h2⟩
      · exact ⟨h1, ih _ h2 (by omega)⟩

theorem insertNat_rising {l : List Nat} (a : Nat) (c : rising l = true) : rising (insertNat l a) = true :=
  (rising_iff _).2 (insertNat_from l 0 a ((rising_iff _).1 c) (Nat.zero_le a))

theorem filter_risingFrom (p : Nat → Bool) (l : List Nat) (lo : Nat) (c : risingFrom lo l) : risingFrom lo (l.filter p) := by
  induction l generalizing lo with
  | nil => trivial
  | cons x rest ih =>
    obtain ⟨h1, h2⟩ := c
    simp only [List.filter]
    split
    · exact ⟨h1, ih _ h2⟩
    · exact risingFrom_mono (by omega) (ih _ h2)

theorem filter_rising (p : Nat → Bool) {l : List Nat} (c : rising l = true) : rising (l.filter p) = true :=
  (rising_iff _).2 (filter_risingFrom p l 0 ((rising_iff _).1 c))

theorem range_from (n lo : Nat) : risingFrom lo (List.range' lo n) := by
  induction n generalizing lo with
  | zero => trivial
  | succ n ih => exact ⟨Nat.le_refl _, ih _⟩

theorem range_rising (n : Nat) : rising (List.range n) = true := by
  rw [List.range_eq_range', rising_iff]
  exact range_from n 0

/-! ## One memory -/

namespace Mem

theorem wf_iff (m : Mem) : m.wf = true ↔ canonical m.cells = true ∧ canonical m.upsets = true ∧ rising m.written = true := by
  simp [wf, Bool.and_eq_true, and_assoc]

/-- A byte write keeps the canonical form. -/
theorem writeByte_wf {m : Mem} (h : m.wf = true) (a : Nat) (b : Byte) : (m.writeByte a b).wf = true := by
  obtain ⟨h1, h2, h3⟩ := (wf_iff m).1 h
  unfold writeByte
  rw [wf_iff]
  dsimp only
  split
  · exact ⟨place_canonical _ _ h1, place_canonical _ _ h2, h3⟩
  · exact ⟨place_canonical _ _ (clearRange_canonical _ _ h1), place_canonical _ _ (clearRange_canonical _ _ h2), insertNat_rising _ h3⟩

theorem writeBytes_wf {m : Mem} (h : m.wf = true) (a : Nat) (b : List Byte) : (m.writeBytes a b).wf = true := by
  induction b generalizing m a with
  | nil => exact h
  | cons x rest ih => exact ih (writeByte_wf h a x) (a + 1)

/-- Losing a range keeps the canonical form. -/
theorem lose_wf {m : Mem} (h : m.wf = true) (lo hi : Nat) : (m.lose lo hi).wf = true := by
  obtain ⟨h1, h2, h3⟩ := (wf_iff m).1 h
  exact (wf_iff _).2 ⟨clearRange_canonical _ _ h1, clearRange_canonical _ _ h2, filter_rising _ h3⟩

theorem zeroed_wf (size : Nat) : (zeroed size).wf = true := (wf_iff _).2 ⟨rfl, rfl, range_rising _⟩

theorem empty_wf : ({} : Mem).wf = true := rfl

end Mem

/-! ## The memory system -/

namespace MemSys

theorem get_wf {ms : MemSys} (h : ms.wf = true) (k : Nat) : (ms.get k).wf = true := by
  simp only [wf, Bool.and_eq_true] at h
  obtain ⟨⟨⟨⟨⟨⟨⟨⟨a, b⟩, c⟩, d⟩, e⟩, f⟩, g⟩, i⟩, j⟩ := h
  unfold get
  split <;> assumption

theorem set_wf {ms : MemSys} {m : Mem} (h : ms.wf = true) (hm : m.wf = true) (k : Nat) : (ms.set k m).wf = true := by
  simp only [wf, Bool.and_eq_true] at h
  obtain ⟨⟨⟨⟨⟨⟨⟨⟨a, b⟩, c⟩, d⟩, e⟩, f⟩, g⟩, i⟩, j⟩ := h
  unfold set
  split <;> simp [wf, *]

/-- A byte write keeps every memory in canonical form. -/
theorem writeByte_wf {ms : MemSys} (h : ms.wf = true) (k a : Nat) (b : Byte) : (ms.writeByte k a b).wf = true := by
  unfold writeByte
  split
  · have := set_wf h (Mem.writeByte_wf (get_wf h k) a b) k
    simpa only [wf] using this
  · exact h

theorem writeBytes_wf {ms : MemSys} (h : ms.wf = true) (k a : Nat) (b : List Byte) : (ms.writeBytes k a b).wf = true := by
  induction b generalizing ms a with
  | nil => exact h
  | cons x rest ih => exact ih (writeByte_wf h k a x) (a + 1)


theorem setLineStore_wf {ms : MemSys} {m : Mem} (h : ms.wf = true) (hm : m.wf = true) : ({ ms with lineStore := m } : MemSys).wf = true :=
  set_wf h hm 0

/-- A bank that changes its power state keeps the canonical form. -/
theorem setBank_wf {ms : MemSys} (h : ms.wf = true) (n : Nat) (on ret : Bool) : (ms.setBank n on ret).wf = true := by
  have keep (m : MemSys) (hm : m.wf = true) (b : Vector BankState 16) (r : BitVec 16) : ({ m with banks := b, ready := r } : MemSys).wf = true := hm
  have hl : ms.lineStore.wf = true := get_wf h 0
  unfold setBank
  extract_lets was now m1
  have hm : m1.wf = true := by
    unfold m1
    split
    · exact setLineStore_wf h (Mem.lose_wf hl _ _)
    · exact h
  exact keep m1 hm _ _

theorem foldl_wf {α : Type} (f : MemSys → α → MemSys) (hf : ∀ m x, m.wf = true → (f m x).wf = true) (l : List α) {ms : MemSys}
    (h : ms.wf = true) : (l.foldl f ms).wf = true := by
  induction l generalizing ms with
  | nil => exact h
  | cons x rest ih => exact ih (hf _ _ h)

theorem setBanks_wf {ms : MemSys} (h : ms.wf = true) (f : Nat → Bool × Bool) : (ms.setBanks f).wf = true :=
  foldl_wf _ (fun _ _ hm => setBank_wf hm _ _ _) _ h

end MemSys

/-! ## Host memory -/

theorem hostWrite_canonical {l : List Host.Cell} (h : canonical l = true) (a : Nat) (b : List Byte) : canonical (hostWrite l a b) = true := by
  induction b generalizing l a with
  | nil => exact h
  | cons x rest ih => exact ih (place_canonical a x h) (a + 1)

end Sys2Proof.Machine
end

