-- ==== Sys2Proof/Laws/State.lean ====
section
/-!
SUPPORT. What each update of the state leaves: one equation per field and update, and for each array of instances the instance updated and
the others.
-/

namespace Sys2Proof.Machine

/-! ## One element of a vector -/

@[simp] theorem upd_get_self {α : Type} {n : Nat} (v : Vector α n) (i : Fin n) (f : α → α) : (upd v i f)[i.val] = f v[i.val] := by
  simp [upd]

theorem upd_get_ne {α : Type} {n : Nat} (v : Vector α n) {i j : Fin n} (h : j ≠ i) (f : α → α) : (upd v i f)[j.val] = v[j.val] := by
  have : i.val ≠ j.val := fun e => h (Fin.ext e.symm)
  simp [upd, this]

namespace State


/-! ## onSys -/

@[simp] theorem onSys_sys (s : State) (f : Sys → Sys) : (s.onSys f).sys = f s.sys := rfl
@[simp] theorem onSys_ladder (s : State) (f : Sys → Sys) : (s.onSys f).ladder = s.ladder := rfl
@[simp] theorem onSys_quiesce (s : State) (f : Sys → Sys) : (s.onSys f).quiesce = s.quiesce := rfl
@[simp] theorem onSys_times (s : State) (f : Sys → Sys) : (s.onSys f).times = s.times := rfl
@[simp] theorem onSys_links (s : State) (f : Sys → Sys) : (s.onSys f).links = s.links := rfl
@[simp] theorem onSys_flt (s : State) (f : Sys → Sys) : (s.onSys f).flt = s.flt := rfl
@[simp] theorem onSys_otp (s : State) (f : Sys → Sys) : (s.onSys f).otp = s.otp := rfl
@[simp] theorem onSys_thm (s : State) (f : Sys → Sys) : (s.onSys f).thm = s.thm := rfl
@[simp] theorem onSys_cal (s : State) (f : Sys → Sys) : (s.onSys f).cal = s.cal := rfl
@[simp] theorem onSys_top (s : State) (f : Sys → Sys) : (s.onSys f).top = s.top := rfl
@[simp] theorem onSys_fab (s : State) (f : Sys → Sys) : (s.onSys f).fab = s.fab := rfl
@[simp] theorem onSys_axes (s : State) (f : Sys → Sys) : (s.onSys f).axes = s.axes := rfl
@[simp] theorem onSys_cores (s : State) (f : Sys → Sys) : (s.onSys f).cores = s.cores := rfl
@[simp] theorem onSys_tlks (s : State) (f : Sys → Sys) : (s.onSys f).tlks = s.tlks := rfl
@[simp] theorem onSys_nodes (s : State) (f : Sys → Sys) : (s.onSys f).nodes = s.nodes := rfl
@[simp] theorem onSys_ports (s : State) (f : Sys → Sys) : (s.onSys f).ports = s.ports := rfl
@[simp] theorem onSys_dma (s : State) (f : Sys → Sys) : (s.onSys f).dma = s.dma := rfl
@[simp] theorem onSys_mem (s : State) (f : Sys → Sys) : (s.onSys f).mem = s.mem := rfl
@[simp] theorem onSys_host (s : State) (f : Sys → Sys) : (s.onSys f).host = s.host := rfl
@[simp] theorem onSys_env (s : State) (f : Sys → Sys) : (s.onSys f).env = s.env := rfl
@[simp] theorem onSys_free (s : State) (f : Sys → Sys) : (s.onSys f).free = s.free := rfl
@[simp] theorem onSys_pending (s : State) (f : Sys → Sys) : (s.onSys f).pending = s.pending := rfl

/-! ## onLadder -/

@[simp] theorem onLadder_sys (s : State) (f : Ladder → Ladder) : (s.onLadder f).sys = s.sys := rfl
@[simp] theorem onLadder_ladder (s : State) (f : Ladder → Ladder) : (s.onLadder f).ladder = f s.ladder := rfl
@[simp] theorem onLadder_quiesce (s : State) (f : Ladder → Ladder) : (s.onLadder f).quiesce = s.quiesce := rfl
@[simp] theorem onLadder_times (s : State) (f : Ladder → Ladder) : (s.onLadder f).times = s.times := rfl
@[simp] theorem onLadder_links (s : State) (f : Ladder → Ladder) : (s.onLadder f).links = s.links := rfl
@[simp] theorem onLadder_flt (s : State) (f : Ladder → Ladder) : (s.onLadder f).flt = s.flt := rfl
@[simp] theorem onLadder_otp (s : State) (f : Ladder → Ladder) : (s.onLadder f).otp = s.otp := rfl
@[simp] theorem onLadder_thm (s : State) (f : Ladder → Ladder) : (s.onLadder f).thm = s.thm := rfl
@[simp] theorem onLadder_cal (s : State) (f : Ladder → Ladder) : (s.onLadder f).cal = s.cal := rfl
@[simp] theorem onLadder_top (s : State) (f : Ladder → Ladder) : (s.onLadder f).top = s.top := rfl
@[simp] theorem onLadder_fab (s : State) (f : Ladder → Ladder) : (s.onLadder f).fab = s.fab := rfl
@[simp] theorem onLadder_axes (s : State) (f : Ladder → Ladder) : (s.onLadder f).axes = s.axes := rfl
@[simp] theorem onLadder_cores (s : State) (f : Ladder → Ladder) : (s.onLadder f).cores = s.cores := rfl
@[simp] theorem onLadder_tlks (s : State) (f : Ladder → Ladder) : (s.onLadder f).tlks = s.tlks := rfl
@[simp] theorem onLadder_nodes (s : State) (f : Ladder → Ladder) : (s.onLadder f).nodes = s.nodes := rfl
@[simp] theorem onLadder_ports (s : State) (f : Ladder → Ladder) : (s.onLadder f).ports = s.ports := rfl
@[simp] theorem onLadder_dma (s : State) (f : Ladder → Ladder) : (s.onLadder f).dma = s.dma := rfl
@[simp] theorem onLadder_mem (s : State) (f : Ladder → Ladder) : (s.onLadder f).mem = s.mem := rfl
@[simp] theorem onLadder_host (s : State) (f : Ladder → Ladder) : (s.onLadder f).host = s.host := rfl
@[simp] theorem onLadder_env (s : State) (f : Ladder → Ladder) : (s.onLadder f).env = s.env := rfl
@[simp] theorem onLadder_free (s : State) (f : Ladder → Ladder) : (s.onLadder f).free = s.free := rfl
@[simp] theorem onLadder_pending (s : State) (f : Ladder → Ladder) : (s.onLadder f).pending = s.pending := rfl

/-! ## onQuiesce -/

@[simp] theorem onQuiesce_sys (s : State) (f : Quiesce → Quiesce) : (s.onQuiesce f).sys = s.sys := rfl
@[simp] theorem onQuiesce_ladder (s : State) (f : Quiesce → Quiesce) : (s.onQuiesce f).ladder = s.ladder := rfl
@[simp] theorem onQuiesce_quiesce (s : State) (f : Quiesce → Quiesce) : (s.onQuiesce f).quiesce = f s.quiesce := rfl
@[simp] theorem onQuiesce_times (s : State) (f : Quiesce → Quiesce) : (s.onQuiesce f).times = s.times := rfl
@[simp] theorem onQuiesce_links (s : State) (f : Quiesce → Quiesce) : (s.onQuiesce f).links = s.links := rfl
@[simp] theorem onQuiesce_flt (s : State) (f : Quiesce → Quiesce) : (s.onQuiesce f).flt = s.flt := rfl
@[simp] theorem onQuiesce_otp (s : State) (f : Quiesce → Quiesce) : (s.onQuiesce f).otp = s.otp := rfl
@[simp] theorem onQuiesce_thm (s : State) (f : Quiesce → Quiesce) : (s.onQuiesce f).thm = s.thm := rfl
@[simp] theorem onQuiesce_cal (s : State) (f : Quiesce → Quiesce) : (s.onQuiesce f).cal = s.cal := rfl
@[simp] theorem onQuiesce_top (s : State) (f : Quiesce → Quiesce) : (s.onQuiesce f).top = s.top := rfl
@[simp] theorem onQuiesce_fab (s : State) (f : Quiesce → Quiesce) : (s.onQuiesce f).fab = s.fab := rfl
@[simp] theorem onQuiesce_axes (s : State) (f : Quiesce → Quiesce) : (s.onQuiesce f).axes = s.axes := rfl
@[simp] theorem onQuiesce_cores (s : State) (f : Quiesce → Quiesce) : (s.onQuiesce f).cores = s.cores := rfl
@[simp] theorem onQuiesce_tlks (s : State) (f : Quiesce → Quiesce) : (s.onQuiesce f).tlks = s.tlks := rfl
@[simp] theorem onQuiesce_nodes (s : State) (f : Quiesce → Quiesce) : (s.onQuiesce f).nodes = s.nodes := rfl
@[simp] theorem onQuiesce_ports (s : State) (f : Quiesce → Quiesce) : (s.onQuiesce f).ports = s.ports := rfl
@[simp] theorem onQuiesce_dma (s : State) (f : Quiesce → Quiesce) : (s.onQuiesce f).dma = s.dma := rfl
@[simp] theorem onQuiesce_mem (s : State) (f : Quiesce → Quiesce) : (s.onQuiesce f).mem = s.mem := rfl
@[simp] theorem onQuiesce_host (s : State) (f : Quiesce → Quiesce) : (s.onQuiesce f).host = s.host := rfl
@[simp] theorem onQuiesce_env (s : State) (f : Quiesce → Quiesce) : (s.onQuiesce f).env = s.env := rfl
@[simp] theorem onQuiesce_free (s : State) (f : Quiesce → Quiesce) : (s.onQuiesce f).free = s.free := rfl
@[simp] theorem onQuiesce_pending (s : State) (f : Quiesce → Quiesce) : (s.onQuiesce f).pending = s.pending := rfl

/-! ## onTimes -/

@[simp] theorem onTimes_sys (s : State) (f : Times → Times) : (s.onTimes f).sys = s.sys := rfl
@[simp] theorem onTimes_ladder (s : State) (f : Times → Times) : (s.onTimes f).ladder = s.ladder := rfl
@[simp] theorem onTimes_quiesce (s : State) (f : Times → Times) : (s.onTimes f).quiesce = s.quiesce := rfl
@[simp] theorem onTimes_times (s : State) (f : Times → Times) : (s.onTimes f).times = f s.times := rfl
@[simp] theorem onTimes_links (s : State) (f : Times → Times) : (s.onTimes f).links = s.links := rfl
@[simp] theorem onTimes_flt (s : State) (f : Times → Times) : (s.onTimes f).flt = s.flt := rfl
@[simp] theorem onTimes_otp (s : State) (f : Times → Times) : (s.onTimes f).otp = s.otp := rfl
@[simp] theorem onTimes_thm (s : State) (f : Times → Times) : (s.onTimes f).thm = s.thm := rfl
@[simp] theorem onTimes_cal (s : State) (f : Times → Times) : (s.onTimes f).cal = s.cal := rfl
@[simp] theorem onTimes_top (s : State) (f : Times → Times) : (s.onTimes f).top = s.top := rfl
@[simp] theorem onTimes_fab (s : State) (f : Times → Times) : (s.onTimes f).fab = s.fab := rfl
@[simp] theorem onTimes_axes (s : State) (f : Times → Times) : (s.onTimes f).axes = s.axes := rfl
@[simp] theorem onTimes_cores (s : State) (f : Times → Times) : (s.onTimes f).cores = s.cores := rfl
@[simp] theorem onTimes_tlks (s : State) (f : Times → Times) : (s.onTimes f).tlks = s.tlks := rfl
@[simp] theorem onTimes_nodes (s : State) (f : Times → Times) : (s.onTimes f).nodes = s.nodes := rfl
@[simp] theorem onTimes_ports (s : State) (f : Times → Times) : (s.onTimes f).ports = s.ports := rfl
@[simp] theorem onTimes_dma (s : State) (f : Times → Times) : (s.onTimes f).dma = s.dma := rfl
@[simp] theorem onTimes_mem (s : State) (f : Times → Times) : (s.onTimes f).mem = s.mem := rfl
@[simp] theorem onTimes_host (s : State) (f : Times → Times) : (s.onTimes f).host = s.host := rfl
@[simp] theorem onTimes_env (s : State) (f : Times → Times) : (s.onTimes f).env = s.env := rfl
@[simp] theorem onTimes_free (s : State) (f : Times → Times) : (s.onTimes f).free = s.free := rfl
@[simp] theorem onTimes_pending (s : State) (f : Times → Times) : (s.onTimes f).pending = s.pending := rfl

/-! ## onLinks -/

@[simp] theorem onLinks_sys (s : State) (f : Links → Links) : (s.onLinks f).sys = s.sys := rfl
@[simp] theorem onLinks_ladder (s : State) (f : Links → Links) : (s.onLinks f).ladder = s.ladder := rfl
@[simp] theorem onLinks_quiesce (s : State) (f : Links → Links) : (s.onLinks f).quiesce = s.quiesce := rfl
@[simp] theorem onLinks_times (s : State) (f : Links → Links) : (s.onLinks f).times = s.times := rfl
@[simp] theorem onLinks_links (s : State) (f : Links → Links) : (s.onLinks f).links = f s.links := rfl
@[simp] theorem onLinks_flt (s : State) (f : Links → Links) : (s.onLinks f).flt = s.flt := rfl
@[simp] theorem onLinks_otp (s : State) (f : Links → Links) : (s.onLinks f).otp = s.otp := rfl
@[simp] theorem onLinks_thm (s : State) (f : Links → Links) : (s.onLinks f).thm = s.thm := rfl
@[simp] theorem onLinks_cal (s : State) (f : Links → Links) : (s.onLinks f).cal = s.cal := rfl
@[simp] theorem onLinks_top (s : State) (f : Links → Links) : (s.onLinks f).top = s.top := rfl
@[simp] theorem onLinks_fab (s : State) (f : Links → Links) : (s.onLinks f).fab = s.fab := rfl
@[simp] theorem onLinks_axes (s : State) (f : Links → Links) : (s.onLinks f).axes = s.axes := rfl
@[simp] theorem onLinks_cores (s : State) (f : Links → Links) : (s.onLinks f).cores = s.cores := rfl
@[simp] theorem onLinks_tlks (s : State) (f : Links → Links) : (s.onLinks f).tlks = s.tlks := rfl
@[simp] theorem onLinks_nodes (s : State) (f : Links → Links) : (s.onLinks f).nodes = s.nodes := rfl
@[simp] theorem onLinks_ports (s : State) (f : Links → Links) : (s.onLinks f).ports = s.ports := rfl
@[simp] theorem onLinks_dma (s : State) (f : Links → Links) : (s.onLinks f).dma = s.dma := rfl
@[simp] theorem onLinks_mem (s : State) (f : Links → Links) : (s.onLinks f).mem = s.mem := rfl
@[simp] theorem onLinks_host (s : State) (f : Links → Links) : (s.onLinks f).host = s.host := rfl
@[simp] theorem onLinks_env (s : State) (f : Links → Links) : (s.onLinks f).env = s.env := rfl
@[simp] theorem onLinks_free (s : State) (f : Links → Links) : (s.onLinks f).free = s.free := rfl
@[simp] theorem onLinks_pending (s : State) (f : Links → Links) : (s.onLinks f).pending = s.pending := rfl

/-! ## onFlt -/

@[simp] theorem onFlt_sys (s : State) (f : Flt → Flt) : (s.onFlt f).sys = s.sys := rfl
@[simp] theorem onFlt_ladder (s : State) (f : Flt → Flt) : (s.onFlt f).ladder = s.ladder := rfl
@[simp] theorem onFlt_quiesce (s : State) (f : Flt → Flt) : (s.onFlt f).quiesce = s.quiesce := rfl
@[simp] theorem onFlt_times (s : State) (f : Flt → Flt) : (s.onFlt f).times = s.times := rfl
@[simp] theorem onFlt_links (s : State) (f : Flt → Flt) : (s.onFlt f).links = s.links := rfl
@[simp] theorem onFlt_flt (s : State) (f : Flt → Flt) : (s.onFlt f).flt = f s.flt := rfl
@[simp] theorem onFlt_otp (s : State) (f : Flt → Flt) : (s.onFlt f).otp = s.otp := rfl
@[simp] theorem onFlt_thm (s : State) (f : Flt → Flt) : (s.onFlt f).thm = s.thm := rfl
@[simp] theorem onFlt_cal (s : State) (f : Flt → Flt) : (s.onFlt f).cal = s.cal := rfl
@[simp] theorem onFlt_top (s : State) (f : Flt → Flt) : (s.onFlt f).top = s.top := rfl
@[simp] theorem onFlt_fab (s : State) (f : Flt → Flt) : (s.onFlt f).fab = s.fab := rfl
@[simp] theorem onFlt_axes (s : State) (f : Flt → Flt) : (s.onFlt f).axes = s.axes := rfl
@[simp] theorem onFlt_cores (s : State) (f : Flt → Flt) : (s.onFlt f).cores = s.cores := rfl
@[simp] theorem onFlt_tlks (s : State) (f : Flt → Flt) : (s.onFlt f).tlks = s.tlks := rfl
@[simp] theorem onFlt_nodes (s : State) (f : Flt → Flt) : (s.onFlt f).nodes = s.nodes := rfl
@[simp] theorem onFlt_ports (s : State) (f : Flt → Flt) : (s.onFlt f).ports = s.ports := rfl
@[simp] theorem onFlt_dma (s : State) (f : Flt → Flt) : (s.onFlt f).dma = s.dma := rfl
@[simp] theorem onFlt_mem (s : State) (f : Flt → Flt) : (s.onFlt f).mem = s.mem := rfl
@[simp] theorem onFlt_host (s : State) (f : Flt → Flt) : (s.onFlt f).host = s.host := rfl
@[simp] theorem onFlt_env (s : State) (f : Flt → Flt) : (s.onFlt f).env = s.env := rfl
@[simp] theorem onFlt_free (s : State) (f : Flt → Flt) : (s.onFlt f).free = s.free := rfl
@[simp] theorem onFlt_pending (s : State) (f : Flt → Flt) : (s.onFlt f).pending = s.pending := rfl

/-! ## onOtp -/

@[simp] theorem onOtp_sys (s : State) (f : Otp → Otp) : (s.onOtp f).sys = s.sys := rfl
@[simp] theorem onOtp_ladder (s : State) (f : Otp → Otp) : (s.onOtp f).ladder = s.ladder := rfl
@[simp] theorem onOtp_quiesce (s : State) (f : Otp → Otp) : (s.onOtp f).quiesce = s.quiesce := rfl
@[simp] theorem onOtp_times (s : State) (f : Otp → Otp) : (s.onOtp f).times = s.times := rfl
@[simp] theorem onOtp_links (s : State) (f : Otp → Otp) : (s.onOtp f).links = s.links := rfl
@[simp] theorem onOtp_flt (s : State) (f : Otp → Otp) : (s.onOtp f).flt = s.flt := rfl
@[simp] theorem onOtp_otp (s : State) (f : Otp → Otp) : (s.onOtp f).otp = f s.otp := rfl
@[simp] theorem onOtp_thm (s : State) (f : Otp → Otp) : (s.onOtp f).thm = s.thm := rfl
@[simp] theorem onOtp_cal (s : State) (f : Otp → Otp) : (s.onOtp f).cal = s.cal := rfl
@[simp] theorem onOtp_top (s : State) (f : Otp → Otp) : (s.onOtp f).top = s.top := rfl
@[simp] theorem onOtp_fab (s : State) (f : Otp → Otp) : (s.onOtp f).fab = s.fab := rfl
@[simp] theorem onOtp_axes (s : State) (f : Otp → Otp) : (s.onOtp f).axes = s.axes := rfl
@[simp] theorem onOtp_cores (s : State) (f : Otp → Otp) : (s.onOtp f).cores = s.cores := rfl
@[simp] theorem onOtp_tlks (s : State) (f : Otp → Otp) : (s.onOtp f).tlks = s.tlks := rfl
@[simp] theorem onOtp_nodes (s : State) (f : Otp → Otp) : (s.onOtp f).nodes = s.nodes := rfl
@[simp] theorem onOtp_ports (s : State) (f : Otp → Otp) : (s.onOtp f).ports = s.ports := rfl
@[simp] theorem onOtp_dma (s : State) (f : Otp → Otp) : (s.onOtp f).dma = s.dma := rfl
@[simp] theorem onOtp_mem (s : State) (f : Otp → Otp) : (s.onOtp f).mem = s.mem := rfl
@[simp] theorem onOtp_host (s : State) (f : Otp → Otp) : (s.onOtp f).host = s.host := rfl
@[simp] theorem onOtp_env (s : State) (f : Otp → Otp) : (s.onOtp f).env = s.env := rfl
@[simp] theorem onOtp_free (s : State) (f : Otp → Otp) : (s.onOtp f).free = s.free := rfl
@[simp] theorem onOtp_pending (s : State) (f : Otp → Otp) : (s.onOtp f).pending = s.pending := rfl

/-! ## onThm -/

@[simp] theorem onThm_sys (s : State) (f : Thm → Thm) : (s.onThm f).sys = s.sys := rfl
@[simp] theorem onThm_ladder (s : State) (f : Thm → Thm) : (s.onThm f).ladder = s.ladder := rfl
@[simp] theorem onThm_quiesce (s : State) (f : Thm → Thm) : (s.onThm f).quiesce = s.quiesce := rfl
@[simp] theorem onThm_times (s : State) (f : Thm → Thm) : (s.onThm f).times = s.times := rfl
@[simp] theorem onThm_links (s : State) (f : Thm → Thm) : (s.onThm f).links = s.links := rfl
@[simp] theorem onThm_flt (s : State) (f : Thm → Thm) : (s.onThm f).flt = s.flt := rfl
@[simp] theorem onThm_otp (s : State) (f : Thm → Thm) : (s.onThm f).otp = s.otp := rfl
@[simp] theorem onThm_thm (s : State) (f : Thm → Thm) : (s.onThm f).thm = f s.thm := rfl
@[simp] theorem onThm_cal (s : State) (f : Thm → Thm) : (s.onThm f).cal = s.cal := rfl
@[simp] theorem onThm_top (s : State) (f : Thm → Thm) : (s.onThm f).top = s.top := rfl
@[simp] theorem onThm_fab (s : State) (f : Thm → Thm) : (s.onThm f).fab = s.fab := rfl
@[simp] theorem onThm_axes (s : State) (f : Thm → Thm) : (s.onThm f).axes = s.axes := rfl
@[simp] theorem onThm_cores (s : State) (f : Thm → Thm) : (s.onThm f).cores = s.cores := rfl
@[simp] theorem onThm_tlks (s : State) (f : Thm → Thm) : (s.onThm f).tlks = s.tlks := rfl
@[simp] theorem onThm_nodes (s : State) (f : Thm → Thm) : (s.onThm f).nodes = s.nodes := rfl
@[simp] theorem onThm_ports (s : State) (f : Thm → Thm) : (s.onThm f).ports = s.ports := rfl
@[simp] theorem onThm_dma (s : State) (f : Thm → Thm) : (s.onThm f).dma = s.dma := rfl
@[simp] theorem onThm_mem (s : State) (f : Thm → Thm) : (s.onThm f).mem = s.mem := rfl
@[simp] theorem onThm_host (s : State) (f : Thm → Thm) : (s.onThm f).host = s.host := rfl
@[simp] theorem onThm_env (s : State) (f : Thm → Thm) : (s.onThm f).env = s.env := rfl
@[simp] theorem onThm_free (s : State) (f : Thm → Thm) : (s.onThm f).free = s.free := rfl
@[simp] theorem onThm_pending (s : State) (f : Thm → Thm) : (s.onThm f).pending = s.pending := rfl

/-! ## onCal -/

@[simp] theorem onCal_sys (s : State) (f : Cal → Cal) : (s.onCal f).sys = s.sys := rfl
@[simp] theorem onCal_ladder (s : State) (f : Cal → Cal) : (s.onCal f).ladder = s.ladder := rfl
@[simp] theorem onCal_quiesce (s : State) (f : Cal → Cal) : (s.onCal f).quiesce = s.quiesce := rfl
@[simp] theorem onCal_times (s : State) (f : Cal → Cal) : (s.onCal f).times = s.times := rfl
@[simp] theorem onCal_links (s : State) (f : Cal → Cal) : (s.onCal f).links = s.links := rfl
@[simp] theorem onCal_flt (s : State) (f : Cal → Cal) : (s.onCal f).flt = s.flt := rfl
@[simp] theorem onCal_otp (s : State) (f : Cal → Cal) : (s.onCal f).otp = s.otp := rfl
@[simp] theorem onCal_thm (s : State) (f : Cal → Cal) : (s.onCal f).thm = s.thm := rfl
@[simp] theorem onCal_cal (s : State) (f : Cal → Cal) : (s.onCal f).cal = f s.cal := rfl
@[simp] theorem onCal_top (s : State) (f : Cal → Cal) : (s.onCal f).top = s.top := rfl
@[simp] theorem onCal_fab (s : State) (f : Cal → Cal) : (s.onCal f).fab = s.fab := rfl
@[simp] theorem onCal_axes (s : State) (f : Cal → Cal) : (s.onCal f).axes = s.axes := rfl
@[simp] theorem onCal_cores (s : State) (f : Cal → Cal) : (s.onCal f).cores = s.cores := rfl
@[simp] theorem onCal_tlks (s : State) (f : Cal → Cal) : (s.onCal f).tlks = s.tlks := rfl
@[simp] theorem onCal_nodes (s : State) (f : Cal → Cal) : (s.onCal f).nodes = s.nodes := rfl
@[simp] theorem onCal_ports (s : State) (f : Cal → Cal) : (s.onCal f).ports = s.ports := rfl
@[simp] theorem onCal_dma (s : State) (f : Cal → Cal) : (s.onCal f).dma = s.dma := rfl
@[simp] theorem onCal_mem (s : State) (f : Cal → Cal) : (s.onCal f).mem = s.mem := rfl
@[simp] theorem onCal_host (s : State) (f : Cal → Cal) : (s.onCal f).host = s.host := rfl
@[simp] theorem onCal_env (s : State) (f : Cal → Cal) : (s.onCal f).env = s.env := rfl
@[simp] theorem onCal_free (s : State) (f : Cal → Cal) : (s.onCal f).free = s.free := rfl
@[simp] theorem onCal_pending (s : State) (f : Cal → Cal) : (s.onCal f).pending = s.pending := rfl

/-! ## onTop -/

@[simp] theorem onTop_sys (s : State) (f : Top → Top) : (s.onTop f).sys = s.sys := rfl
@[simp] theorem onTop_ladder (s : State) (f : Top → Top) : (s.onTop f).ladder = s.ladder := rfl
@[simp] theorem onTop_quiesce (s : State) (f : Top → Top) : (s.onTop f).quiesce = s.quiesce := rfl
@[simp] theorem onTop_times (s : State) (f : Top → Top) : (s.onTop f).times = s.times := rfl
@[simp] theorem onTop_links (s : State) (f : Top → Top) : (s.onTop f).links = s.links := rfl
@[simp] theorem onTop_flt (s : State) (f : Top → Top) : (s.onTop f).flt = s.flt := rfl
@[simp] theorem onTop_otp (s : State) (f : Top → Top) : (s.onTop f).otp = s.otp := rfl
@[simp] theorem onTop_thm (s : State) (f : Top → Top) : (s.onTop f).thm = s.thm := rfl
@[simp] theorem onTop_cal (s : State) (f : Top → Top) : (s.onTop f).cal = s.cal := rfl
@[simp] theorem onTop_top (s : State) (f : Top → Top) : (s.onTop f).top = f s.top := rfl
@[simp] theorem onTop_fab (s : State) (f : Top → Top) : (s.onTop f).fab = s.fab := rfl
@[simp] theorem onTop_axes (s : State) (f : Top → Top) : (s.onTop f).axes = s.axes := rfl
@[simp] theorem onTop_cores (s : State) (f : Top → Top) : (s.onTop f).cores = s.cores := rfl
@[simp] theorem onTop_tlks (s : State) (f : Top → Top) : (s.onTop f).tlks = s.tlks := rfl
@[simp] theorem onTop_nodes (s : State) (f : Top → Top) : (s.onTop f).nodes = s.nodes := rfl
@[simp] theorem onTop_ports (s : State) (f : Top → Top) : (s.onTop f).ports = s.ports := rfl
@[simp] theorem onTop_dma (s : State) (f : Top → Top) : (s.onTop f).dma = s.dma := rfl
@[simp] theorem onTop_mem (s : State) (f : Top → Top) : (s.onTop f).mem = s.mem := rfl
@[simp] theorem onTop_host (s : State) (f : Top → Top) : (s.onTop f).host = s.host := rfl
@[simp] theorem onTop_env (s : State) (f : Top → Top) : (s.onTop f).env = s.env := rfl
@[simp] theorem onTop_free (s : State) (f : Top → Top) : (s.onTop f).free = s.free := rfl
@[simp] theorem onTop_pending (s : State) (f : Top → Top) : (s.onTop f).pending = s.pending := rfl

/-! ## onFab -/

@[simp] theorem onFab_sys (s : State) (f : Fab → Fab) : (s.onFab f).sys = s.sys := rfl
@[simp] theorem onFab_ladder (s : State) (f : Fab → Fab) : (s.onFab f).ladder = s.ladder := rfl
@[simp] theorem onFab_quiesce (s : State) (f : Fab → Fab) : (s.onFab f).quiesce = s.quiesce := rfl
@[simp] theorem onFab_times (s : State) (f : Fab → Fab) : (s.onFab f).times = s.times := rfl
@[simp] theorem onFab_links (s : State) (f : Fab → Fab) : (s.onFab f).links = s.links := rfl
@[simp] theorem onFab_flt (s : State) (f : Fab → Fab) : (s.onFab f).flt = s.flt := rfl
@[simp] theorem onFab_otp (s : State) (f : Fab → Fab) : (s.onFab f).otp = s.otp := rfl
@[simp] theorem onFab_thm (s : State) (f : Fab → Fab) : (s.onFab f).thm = s.thm := rfl
@[simp] theorem onFab_cal (s : State) (f : Fab → Fab) : (s.onFab f).cal = s.cal := rfl
@[simp] theorem onFab_top (s : State) (f : Fab → Fab) : (s.onFab f).top = s.top := rfl
@[simp] theorem onFab_fab (s : State) (f : Fab → Fab) : (s.onFab f).fab = f s.fab := rfl
@[simp] theorem onFab_axes (s : State) (f : Fab → Fab) : (s.onFab f).axes = s.axes := rfl
@[simp] theorem onFab_cores (s : State) (f : Fab → Fab) : (s.onFab f).cores = s.cores := rfl
@[simp] theorem onFab_tlks (s : State) (f : Fab → Fab) : (s.onFab f).tlks = s.tlks := rfl
@[simp] theorem onFab_nodes (s : State) (f : Fab → Fab) : (s.onFab f).nodes = s.nodes := rfl
@[simp] theorem onFab_ports (s : State) (f : Fab → Fab) : (s.onFab f).ports = s.ports := rfl
@[simp] theorem onFab_dma (s : State) (f : Fab → Fab) : (s.onFab f).dma = s.dma := rfl
@[simp] theorem onFab_mem (s : State) (f : Fab → Fab) : (s.onFab f).mem = s.mem := rfl
@[simp] theorem onFab_host (s : State) (f : Fab → Fab) : (s.onFab f).host = s.host := rfl
@[simp] theorem onFab_env (s : State) (f : Fab → Fab) : (s.onFab f).env = s.env := rfl
@[simp] theorem onFab_free (s : State) (f : Fab → Fab) : (s.onFab f).free = s.free := rfl
@[simp] theorem onFab_pending (s : State) (f : Fab → Fab) : (s.onFab f).pending = s.pending := rfl

/-! ## onAxes -/

@[simp] theorem onAxes_sys (s : State) (f : Vector Axis 8 → Vector Axis 8) : (s.onAxes f).sys = s.sys := rfl
@[simp] theorem onAxes_ladder (s : State) (f : Vector Axis 8 → Vector Axis 8) : (s.onAxes f).ladder = s.ladder := rfl
@[simp] theorem onAxes_quiesce (s : State) (f : Vector Axis 8 → Vector Axis 8) : (s.onAxes f).quiesce = s.quiesce := rfl
@[simp] theorem onAxes_times (s : State) (f : Vector Axis 8 → Vector Axis 8) : (s.onAxes f).times = s.times := rfl
@[simp] theorem onAxes_links (s : State) (f : Vector Axis 8 → Vector Axis 8) : (s.onAxes f).links = s.links := rfl
@[simp] theorem onAxes_flt (s : State) (f : Vector Axis 8 → Vector Axis 8) : (s.onAxes f).flt = s.flt := rfl
@[simp] theorem onAxes_otp (s : State) (f : Vector Axis 8 → Vector Axis 8) : (s.onAxes f).otp = s.otp := rfl
@[simp] theorem onAxes_thm (s : State) (f : Vector Axis 8 → Vector Axis 8) : (s.onAxes f).thm = s.thm := rfl
@[simp] theorem onAxes_cal (s : State) (f : Vector Axis 8 → Vector Axis 8) : (s.onAxes f).cal = s.cal := rfl
@[simp] theorem onAxes_top (s : State) (f : Vector Axis 8 → Vector Axis 8) : (s.onAxes f).top = s.top := rfl
@[simp] theorem onAxes_fab (s : State) (f : Vector Axis 8 → Vector Axis 8) : (s.onAxes f).fab = s.fab := rfl
@[simp] theorem onAxes_axes (s : State) (f : Vector Axis 8 → Vector Axis 8) : (s.onAxes f).axes = f s.axes := rfl
@[simp] theorem onAxes_cores (s : State) (f : Vector Axis 8 → Vector Axis 8) : (s.onAxes f).cores = s.cores := rfl
@[simp] theorem onAxes_tlks (s : State) (f : Vector Axis 8 → Vector Axis 8) : (s.onAxes f).tlks = s.tlks := rfl
@[simp] theorem onAxes_nodes (s : State) (f : Vector Axis 8 → Vector Axis 8) : (s.onAxes f).nodes = s.nodes := rfl
@[simp] theorem onAxes_ports (s : State) (f : Vector Axis 8 → Vector Axis 8) : (s.onAxes f).ports = s.ports := rfl
@[simp] theorem onAxes_dma (s : State) (f : Vector Axis 8 → Vector Axis 8) : (s.onAxes f).dma = s.dma := rfl
@[simp] theorem onAxes_mem (s : State) (f : Vector Axis 8 → Vector Axis 8) : (s.onAxes f).mem = s.mem := rfl
@[simp] theorem onAxes_host (s : State) (f : Vector Axis 8 → Vector Axis 8) : (s.onAxes f).host = s.host := rfl
@[simp] theorem onAxes_env (s : State) (f : Vector Axis 8 → Vector Axis 8) : (s.onAxes f).env = s.env := rfl
@[simp] theorem onAxes_free (s : State) (f : Vector Axis 8 → Vector Axis 8) : (s.onAxes f).free = s.free := rfl
@[simp] theorem onAxes_pending (s : State) (f : Vector Axis 8 → Vector Axis 8) : (s.onAxes f).pending = s.pending := rfl

/-! ## onCores -/

@[simp] theorem onCores_sys (s : State) (f : Vector Core 4 → Vector Core 4) : (s.onCores f).sys = s.sys := rfl
@[simp] theorem onCores_ladder (s : State) (f : Vector Core 4 → Vector Core 4) : (s.onCores f).ladder = s.ladder := rfl
@[simp] theorem onCores_quiesce (s : State) (f : Vector Core 4 → Vector Core 4) : (s.onCores f).quiesce = s.quiesce := rfl
@[simp] theorem onCores_times (s : State) (f : Vector Core 4 → Vector Core 4) : (s.onCores f).times = s.times := rfl
@[simp] theorem onCores_links (s : State) (f : Vector Core 4 → Vector Core 4) : (s.onCores f).links = s.links := rfl
@[simp] theorem onCores_flt (s : State) (f : Vector Core 4 → Vector Core 4) : (s.onCores f).flt = s.flt := rfl
@[simp] theorem onCores_otp (s : State) (f : Vector Core 4 → Vector Core 4) : (s.onCores f).otp = s.otp := rfl
@[simp] theorem onCores_thm (s : State) (f : Vector Core 4 → Vector Core 4) : (s.onCores f).thm = s.thm := rfl
@[simp] theorem onCores_cal (s : State) (f : Vector Core 4 → Vector Core 4) : (s.onCores f).cal = s.cal := rfl
@[simp] theorem onCores_top (s : State) (f : Vector Core 4 → Vector Core 4) : (s.onCores f).top = s.top := rfl
@[simp] theorem onCores_fab (s : State) (f : Vector Core 4 → Vector Core 4) : (s.onCores f).fab = s.fab := rfl
@[simp] theorem onCores_axes (s : State) (f : Vector Core 4 → Vector Core 4) : (s.onCores f).axes = s.axes := rfl
@[simp] theorem onCores_cores (s : State) (f : Vector Core 4 → Vector Core 4) : (s.onCores f).cores = f s.cores := rfl
@[simp] theorem onCores_tlks (s : State) (f : Vector Core 4 → Vector Core 4) : (s.onCores f).tlks = s.tlks := rfl
@[simp] theorem onCores_nodes (s : State) (f : Vector Core 4 → Vector Core 4) : (s.onCores f).nodes = s.nodes := rfl
@[simp] theorem onCores_ports (s : State) (f : Vector Core 4 → Vector Core 4) : (s.onCores f).ports = s.ports := rfl
@[simp] theorem onCores_dma (s : State) (f : Vector Core 4 → Vector Core 4) : (s.onCores f).dma = s.dma := rfl
@[simp] theorem onCores_mem (s : State) (f : Vector Core 4 → Vector Core 4) : (s.onCores f).mem = s.mem := rfl
@[simp] theorem onCores_host (s : State) (f : Vector Core 4 → Vector Core 4) : (s.onCores f).host = s.host := rfl
@[simp] theorem onCores_env (s : State) (f : Vector Core 4 → Vector Core 4) : (s.onCores f).env = s.env := rfl
@[simp] theorem onCores_free (s : State) (f : Vector Core 4 → Vector Core 4) : (s.onCores f).free = s.free := rfl
@[simp] theorem onCores_pending (s : State) (f : Vector Core 4 → Vector Core 4) : (s.onCores f).pending = s.pending := rfl

/-! ## onTlks -/

@[simp] theorem onTlks_sys (s : State) (f : Vector Tlk 8 → Vector Tlk 8) : (s.onTlks f).sys = s.sys := rfl
@[simp] theorem onTlks_ladder (s : State) (f : Vector Tlk 8 → Vector Tlk 8) : (s.onTlks f).ladder = s.ladder := rfl
@[simp] theorem onTlks_quiesce (s : State) (f : Vector Tlk 8 → Vector Tlk 8) : (s.onTlks f).quiesce = s.quiesce := rfl
@[simp] theorem onTlks_times (s : State) (f : Vector Tlk 8 → Vector Tlk 8) : (s.onTlks f).times = s.times := rfl
@[simp] theorem onTlks_links (s : State) (f : Vector Tlk 8 → Vector Tlk 8) : (s.onTlks f).links = s.links := rfl
@[simp] theorem onTlks_flt (s : State) (f : Vector Tlk 8 → Vector Tlk 8) : (s.onTlks f).flt = s.flt := rfl
@[simp] theorem onTlks_otp (s : State) (f : Vector Tlk 8 → Vector Tlk 8) : (s.onTlks f).otp = s.otp := rfl
@[simp] theorem onTlks_thm (s : State) (f : Vector Tlk 8 → Vector Tlk 8) : (s.onTlks f).thm = s.thm := rfl
@[simp] theorem onTlks_cal (s : State) (f : Vector Tlk 8 → Vector Tlk 8) : (s.onTlks f).cal = s.cal := rfl
@[simp] theorem onTlks_top (s : State) (f : Vector Tlk 8 → Vector Tlk 8) : (s.onTlks f).top = s.top := rfl
@[simp] theorem onTlks_fab (s : State) (f : Vector Tlk 8 → Vector Tlk 8) : (s.onTlks f).fab = s.fab := rfl
@[simp] theorem onTlks_axes (s : State) (f : Vector Tlk 8 → Vector Tlk 8) : (s.onTlks f).axes = s.axes := rfl
@[simp] theorem onTlks_cores (s : State) (f : Vector Tlk 8 → Vector Tlk 8) : (s.onTlks f).cores = s.cores := rfl
@[simp] theorem onTlks_tlks (s : State) (f : Vector Tlk 8 → Vector Tlk 8) : (s.onTlks f).tlks = f s.tlks := rfl
@[simp] theorem onTlks_nodes (s : State) (f : Vector Tlk 8 → Vector Tlk 8) : (s.onTlks f).nodes = s.nodes := rfl
@[simp] theorem onTlks_ports (s : State) (f : Vector Tlk 8 → Vector Tlk 8) : (s.onTlks f).ports = s.ports := rfl
@[simp] theorem onTlks_dma (s : State) (f : Vector Tlk 8 → Vector Tlk 8) : (s.onTlks f).dma = s.dma := rfl
@[simp] theorem onTlks_mem (s : State) (f : Vector Tlk 8 → Vector Tlk 8) : (s.onTlks f).mem = s.mem := rfl
@[simp] theorem onTlks_host (s : State) (f : Vector Tlk 8 → Vector Tlk 8) : (s.onTlks f).host = s.host := rfl
@[simp] theorem onTlks_env (s : State) (f : Vector Tlk 8 → Vector Tlk 8) : (s.onTlks f).env = s.env := rfl
@[simp] theorem onTlks_free (s : State) (f : Vector Tlk 8 → Vector Tlk 8) : (s.onTlks f).free = s.free := rfl
@[simp] theorem onTlks_pending (s : State) (f : Vector Tlk 8 → Vector Tlk 8) : (s.onTlks f).pending = s.pending := rfl

/-! ## onNodes -/

@[simp] theorem onNodes_sys (s : State) (f : Vector (Vector Node 8) 8 → Vector (Vector Node 8) 8) : (s.onNodes f).sys = s.sys := rfl
@[simp] theorem onNodes_ladder (s : State) (f : Vector (Vector Node 8) 8 → Vector (Vector Node 8) 8) : (s.onNodes f).ladder = s.ladder := rfl
@[simp] theorem onNodes_quiesce (s : State) (f : Vector (Vector Node 8) 8 → Vector (Vector Node 8) 8) : (s.onNodes f).quiesce = s.quiesce := rfl
@[simp] theorem onNodes_times (s : State) (f : Vector (Vector Node 8) 8 → Vector (Vector Node 8) 8) : (s.onNodes f).times = s.times := rfl
@[simp] theorem onNodes_links (s : State) (f : Vector (Vector Node 8) 8 → Vector (Vector Node 8) 8) : (s.onNodes f).links = s.links := rfl
@[simp] theorem onNodes_flt (s : State) (f : Vector (Vector Node 8) 8 → Vector (Vector Node 8) 8) : (s.onNodes f).flt = s.flt := rfl
@[simp] theorem onNodes_otp (s : State) (f : Vector (Vector Node 8) 8 → Vector (Vector Node 8) 8) : (s.onNodes f).otp = s.otp := rfl
@[simp] theorem onNodes_thm (s : State) (f : Vector (Vector Node 8) 8 → Vector (Vector Node 8) 8) : (s.onNodes f).thm = s.thm := rfl
@[simp] theorem onNodes_cal (s : State) (f : Vector (Vector Node 8) 8 → Vector (Vector Node 8) 8) : (s.onNodes f).cal = s.cal := rfl
@[simp] theorem onNodes_top (s : State) (f : Vector (Vector Node 8) 8 → Vector (Vector Node 8) 8) : (s.onNodes f).top = s.top := rfl
@[simp] theorem onNodes_fab (s : State) (f : Vector (Vector Node 8) 8 → Vector (Vector Node 8) 8) : (s.onNodes f).fab = s.fab := rfl
@[simp] theorem onNodes_axes (s : State) (f : Vector (Vector Node 8) 8 → Vector (Vector Node 8) 8) : (s.onNodes f).axes = s.axes := rfl
@[simp] theorem onNodes_cores (s : State) (f : Vector (Vector Node 8) 8 → Vector (Vector Node 8) 8) : (s.onNodes f).cores = s.cores := rfl
@[simp] theorem onNodes_tlks (s : State) (f : Vector (Vector Node 8) 8 → Vector (Vector Node 8) 8) : (s.onNodes f).tlks = s.tlks := rfl
@[simp] theorem onNodes_nodes (s : State) (f : Vector (Vector Node 8) 8 → Vector (Vector Node 8) 8) : (s.onNodes f).nodes = f s.nodes := rfl
@[simp] theorem onNodes_ports (s : State) (f : Vector (Vector Node 8) 8 → Vector (Vector Node 8) 8) : (s.onNodes f).ports = s.ports := rfl
@[simp] theorem onNodes_dma (s : State) (f : Vector (Vector Node 8) 8 → Vector (Vector Node 8) 8) : (s.onNodes f).dma = s.dma := rfl
@[simp] theorem onNodes_mem (s : State) (f : Vector (Vector Node 8) 8 → Vector (Vector Node 8) 8) : (s.onNodes f).mem = s.mem := rfl
@[simp] theorem onNodes_host (s : State) (f : Vector (Vector Node 8) 8 → Vector (Vector Node 8) 8) : (s.onNodes f).host = s.host := rfl
@[simp] theorem onNodes_env (s : State) (f : Vector (Vector Node 8) 8 → Vector (Vector Node 8) 8) : (s.onNodes f).env = s.env := rfl
@[simp] theorem onNodes_free (s : State) (f : Vector (Vector Node 8) 8 → Vector (Vector Node 8) 8) : (s.onNodes f).free = s.free := rfl
@[simp] theorem onNodes_pending (s : State) (f : Vector (Vector Node 8) 8 → Vector (Vector Node 8) 8) : (s.onNodes f).pending = s.pending := rfl

/-! ## onPorts -/

@[simp] theorem onPorts_sys (s : State) (f : Vector Port 4 → Vector Port 4) : (s.onPorts f).sys = s.sys := rfl
@[simp] theorem onPorts_ladder (s : State) (f : Vector Port 4 → Vector Port 4) : (s.onPorts f).ladder = s.ladder := rfl
@[simp] theorem onPorts_quiesce (s : State) (f : Vector Port 4 → Vector Port 4) : (s.onPorts f).quiesce = s.quiesce := rfl
@[simp] theorem onPorts_times (s : State) (f : Vector Port 4 → Vector Port 4) : (s.onPorts f).times = s.times := rfl
@[simp] theorem onPorts_links (s : State) (f : Vector Port 4 → Vector Port 4) : (s.onPorts f).links = s.links := rfl
@[simp] theorem onPorts_flt (s : State) (f : Vector Port 4 → Vector Port 4) : (s.onPorts f).flt = s.flt := rfl
@[simp] theorem onPorts_otp (s : State) (f : Vector Port 4 → Vector Port 4) : (s.onPorts f).otp = s.otp := rfl
@[simp] theorem onPorts_thm (s : State) (f : Vector Port 4 → Vector Port 4) : (s.onPorts f).thm = s.thm := rfl
@[simp] theorem onPorts_cal (s : State) (f : Vector Port 4 → Vector Port 4) : (s.onPorts f).cal = s.cal := rfl
@[simp] theorem onPorts_top (s : State) (f : Vector Port 4 → Vector Port 4) : (s.onPorts f).top = s.top := rfl
@[simp] theorem onPorts_fab (s : State) (f : Vector Port 4 → Vector Port 4) : (s.onPorts f).fab = s.fab := rfl
@[simp] theorem onPorts_axes (s : State) (f : Vector Port 4 → Vector Port 4) : (s.onPorts f).axes = s.axes := rfl
@[simp] theorem onPorts_cores (s : State) (f : Vector Port 4 → Vector Port 4) : (s.onPorts f).cores = s.cores := rfl
@[simp] theorem onPorts_tlks (s : State) (f : Vector Port 4 → Vector Port 4) : (s.onPorts f).tlks = s.tlks := rfl
@[simp] theorem onPorts_nodes (s : State) (f : Vector Port 4 → Vector Port 4) : (s.onPorts f).nodes = s.nodes := rfl
@[simp] theorem onPorts_ports (s : State) (f : Vector Port 4 → Vector Port 4) : (s.onPorts f).ports = f s.ports := rfl
@[simp] theorem onPorts_dma (s : State) (f : Vector Port 4 → Vector Port 4) : (s.onPorts f).dma = s.dma := rfl
@[simp] theorem onPorts_mem (s : State) (f : Vector Port 4 → Vector Port 4) : (s.onPorts f).mem = s.mem := rfl
@[simp] theorem onPorts_host (s : State) (f : Vector Port 4 → Vector Port 4) : (s.onPorts f).host = s.host := rfl
@[simp] theorem onPorts_env (s : State) (f : Vector Port 4 → Vector Port 4) : (s.onPorts f).env = s.env := rfl
@[simp] theorem onPorts_free (s : State) (f : Vector Port 4 → Vector Port 4) : (s.onPorts f).free = s.free := rfl
@[simp] theorem onPorts_pending (s : State) (f : Vector Port 4 → Vector Port 4) : (s.onPorts f).pending = s.pending := rfl

/-! ## onDma -/

@[simp] theorem onDma_sys (s : State) (f : Dma → Dma) : (s.onDma f).sys = s.sys := rfl
@[simp] theorem onDma_ladder (s : State) (f : Dma → Dma) : (s.onDma f).ladder = s.ladder := rfl
@[simp] theorem onDma_quiesce (s : State) (f : Dma → Dma) : (s.onDma f).quiesce = s.quiesce := rfl
@[simp] theorem onDma_times (s : State) (f : Dma → Dma) : (s.onDma f).times = s.times := rfl
@[simp] theorem onDma_links (s : State) (f : Dma → Dma) : (s.onDma f).links = s.links := rfl
@[simp] theorem onDma_flt (s : State) (f : Dma → Dma) : (s.onDma f).flt = s.flt := rfl
@[simp] theorem onDma_otp (s : State) (f : Dma → Dma) : (s.onDma f).otp = s.otp := rfl
@[simp] theorem onDma_thm (s : State) (f : Dma → Dma) : (s.onDma f).thm = s.thm := rfl
@[simp] theorem onDma_cal (s : State) (f : Dma → Dma) : (s.onDma f).cal = s.cal := rfl
@[simp] theorem onDma_top (s : State) (f : Dma → Dma) : (s.onDma f).top = s.top := rfl
@[simp] theorem onDma_fab (s : State) (f : Dma → Dma) : (s.onDma f).fab = s.fab := rfl
@[simp] theorem onDma_axes (s : State) (f : Dma → Dma) : (s.onDma f).axes = s.axes := rfl
@[simp] theorem onDma_cores (s : State) (f : Dma → Dma) : (s.onDma f).cores = s.cores := rfl
@[simp] theorem onDma_tlks (s : State) (f : Dma → Dma) : (s.onDma f).tlks = s.tlks := rfl
@[simp] theorem onDma_nodes (s : State) (f : Dma → Dma) : (s.onDma f).nodes = s.nodes := rfl
@[simp] theorem onDma_ports (s : State) (f : Dma → Dma) : (s.onDma f).ports = s.ports := rfl
@[simp] theorem onDma_dma (s : State) (f : Dma → Dma) : (s.onDma f).dma = f s.dma := rfl
@[simp] theorem onDma_mem (s : State) (f : Dma → Dma) : (s.onDma f).mem = s.mem := rfl
@[simp] theorem onDma_host (s : State) (f : Dma → Dma) : (s.onDma f).host = s.host := rfl
@[simp] theorem onDma_env (s : State) (f : Dma → Dma) : (s.onDma f).env = s.env := rfl
@[simp] theorem onDma_free (s : State) (f : Dma → Dma) : (s.onDma f).free = s.free := rfl
@[simp] theorem onDma_pending (s : State) (f : Dma → Dma) : (s.onDma f).pending = s.pending := rfl

/-! ## onMem -/

@[simp] theorem onMem_sys (s : State) (f : MemSys → MemSys) : (s.onMem f).sys = s.sys := rfl
@[simp] theorem onMem_ladder (s : State) (f : MemSys → MemSys) : (s.onMem f).ladder = s.ladder := rfl
@[simp] theorem onMem_quiesce (s : State) (f : MemSys → MemSys) : (s.onMem f).quiesce = s.quiesce := rfl
@[simp] theorem onMem_times (s : State) (f : MemSys → MemSys) : (s.onMem f).times = s.times := rfl
@[simp] theorem onMem_links (s : State) (f : MemSys → MemSys) : (s.onMem f).links = s.links := rfl
@[simp] theorem onMem_flt (s : State) (f : MemSys → MemSys) : (s.onMem f).flt = s.flt := rfl
@[simp] theorem onMem_otp (s : State) (f : MemSys → MemSys) : (s.onMem f).otp = s.otp := rfl
@[simp] theorem onMem_thm (s : State) (f : MemSys → MemSys) : (s.onMem f).thm = s.thm := rfl
@[simp] theorem onMem_cal (s : State) (f : MemSys → MemSys) : (s.onMem f).cal = s.cal := rfl
@[simp] theorem onMem_top (s : State) (f : MemSys → MemSys) : (s.onMem f).top = s.top := rfl
@[simp] theorem onMem_fab (s : State) (f : MemSys → MemSys) : (s.onMem f).fab = s.fab := rfl
@[simp] theorem onMem_axes (s : State) (f : MemSys → MemSys) : (s.onMem f).axes = s.axes := rfl
@[simp] theorem onMem_cores (s : State) (f : MemSys → MemSys) : (s.onMem f).cores = s.cores := rfl
@[simp] theorem onMem_tlks (s : State) (f : MemSys → MemSys) : (s.onMem f).tlks = s.tlks := rfl
@[simp] theorem onMem_nodes (s : State) (f : MemSys → MemSys) : (s.onMem f).nodes = s.nodes := rfl
@[simp] theorem onMem_ports (s : State) (f : MemSys → MemSys) : (s.onMem f).ports = s.ports := rfl
@[simp] theorem onMem_dma (s : State) (f : MemSys → MemSys) : (s.onMem f).dma = s.dma := rfl
@[simp] theorem onMem_mem (s : State) (f : MemSys → MemSys) : (s.onMem f).mem = f s.mem := rfl
@[simp] theorem onMem_host (s : State) (f : MemSys → MemSys) : (s.onMem f).host = s.host := rfl
@[simp] theorem onMem_env (s : State) (f : MemSys → MemSys) : (s.onMem f).env = s.env := rfl
@[simp] theorem onMem_free (s : State) (f : MemSys → MemSys) : (s.onMem f).free = s.free := rfl
@[simp] theorem onMem_pending (s : State) (f : MemSys → MemSys) : (s.onMem f).pending = s.pending := rfl

/-! ## onHost -/

@[simp] theorem onHost_sys (s : State) (f : HostIf → HostIf) : (s.onHost f).sys = s.sys := rfl
@[simp] theorem onHost_ladder (s : State) (f : HostIf → HostIf) : (s.onHost f).ladder = s.ladder := rfl
@[simp] theorem onHost_quiesce (s : State) (f : HostIf → HostIf) : (s.onHost f).quiesce = s.quiesce := rfl
@[simp] theorem onHost_times (s : State) (f : HostIf → HostIf) : (s.onHost f).times = s.times := rfl
@[simp] theorem onHost_links (s : State) (f : HostIf → HostIf) : (s.onHost f).links = s.links := rfl
@[simp] theorem onHost_flt (s : State) (f : HostIf → HostIf) : (s.onHost f).flt = s.flt := rfl
@[simp] theorem onHost_otp (s : State) (f : HostIf → HostIf) : (s.onHost f).otp = s.otp := rfl
@[simp] theorem onHost_thm (s : State) (f : HostIf → HostIf) : (s.onHost f).thm = s.thm := rfl
@[simp] theorem onHost_cal (s : State) (f : HostIf → HostIf) : (s.onHost f).cal = s.cal := rfl
@[simp] theorem onHost_top (s : State) (f : HostIf → HostIf) : (s.onHost f).top = s.top := rfl
@[simp] theorem onHost_fab (s : State) (f : HostIf → HostIf) : (s.onHost f).fab = s.fab := rfl
@[simp] theorem onHost_axes (s : State) (f : HostIf → HostIf) : (s.onHost f).axes = s.axes := rfl
@[simp] theorem onHost_cores (s : State) (f : HostIf → HostIf) : (s.onHost f).cores = s.cores := rfl
@[simp] theorem onHost_tlks (s : State) (f : HostIf → HostIf) : (s.onHost f).tlks = s.tlks := rfl
@[simp] theorem onHost_nodes (s : State) (f : HostIf → HostIf) : (s.onHost f).nodes = s.nodes := rfl
@[simp] theorem onHost_ports (s : State) (f : HostIf → HostIf) : (s.onHost f).ports = s.ports := rfl
@[simp] theorem onHost_dma (s : State) (f : HostIf → HostIf) : (s.onHost f).dma = s.dma := rfl
@[simp] theorem onHost_mem (s : State) (f : HostIf → HostIf) : (s.onHost f).mem = s.mem := rfl
@[simp] theorem onHost_host (s : State) (f : HostIf → HostIf) : (s.onHost f).host = f s.host := rfl
@[simp] theorem onHost_env (s : State) (f : HostIf → HostIf) : (s.onHost f).env = s.env := rfl
@[simp] theorem onHost_free (s : State) (f : HostIf → HostIf) : (s.onHost f).free = s.free := rfl
@[simp] theorem onHost_pending (s : State) (f : HostIf → HostIf) : (s.onHost f).pending = s.pending := rfl

/-! ## onEnv -/

@[simp] theorem onEnv_sys (s : State) (f : Env → Env) : (s.onEnv f).sys = s.sys := rfl
@[simp] theorem onEnv_ladder (s : State) (f : Env → Env) : (s.onEnv f).ladder = s.ladder := rfl
@[simp] theorem onEnv_quiesce (s : State) (f : Env → Env) : (s.onEnv f).quiesce = s.quiesce := rfl
@[simp] theorem onEnv_times (s : State) (f : Env → Env) : (s.onEnv f).times = s.times := rfl
@[simp] theorem onEnv_links (s : State) (f : Env → Env) : (s.onEnv f).links = s.links := rfl
@[simp] theorem onEnv_flt (s : State) (f : Env → Env) : (s.onEnv f).flt = s.flt := rfl
@[simp] theorem onEnv_otp (s : State) (f : Env → Env) : (s.onEnv f).otp = s.otp := rfl
@[simp] theorem onEnv_thm (s : State) (f : Env → Env) : (s.onEnv f).thm = s.thm := rfl
@[simp] theorem onEnv_cal (s : State) (f : Env → Env) : (s.onEnv f).cal = s.cal := rfl
@[simp] theorem onEnv_top (s : State) (f : Env → Env) : (s.onEnv f).top = s.top := rfl
@[simp] theorem onEnv_fab (s : State) (f : Env → Env) : (s.onEnv f).fab = s.fab := rfl
@[simp] theorem onEnv_axes (s : State) (f : Env → Env) : (s.onEnv f).axes = s.axes := rfl
@[simp] theorem onEnv_cores (s : State) (f : Env → Env) : (s.onEnv f).cores = s.cores := rfl
@[simp] theorem onEnv_tlks (s : State) (f : Env → Env) : (s.onEnv f).tlks = s.tlks := rfl
@[simp] theorem onEnv_nodes (s : State) (f : Env → Env) : (s.onEnv f).nodes = s.nodes := rfl
@[simp] theorem onEnv_ports (s : State) (f : Env → Env) : (s.onEnv f).ports = s.ports := rfl
@[simp] theorem onEnv_dma (s : State) (f : Env → Env) : (s.onEnv f).dma = s.dma := rfl
@[simp] theorem onEnv_mem (s : State) (f : Env → Env) : (s.onEnv f).mem = s.mem := rfl
@[simp] theorem onEnv_host (s : State) (f : Env → Env) : (s.onEnv f).host = s.host := rfl
@[simp] theorem onEnv_env (s : State) (f : Env → Env) : (s.onEnv f).env = f s.env := rfl
@[simp] theorem onEnv_free (s : State) (f : Env → Env) : (s.onEnv f).free = s.free := rfl
@[simp] theorem onEnv_pending (s : State) (f : Env → Env) : (s.onEnv f).pending = s.pending := rfl

/-! ## bumpFree -/

@[simp] theorem bumpFree_sys (s : State) : s.bumpFree.sys = s.sys := rfl
@[simp] theorem bumpFree_ladder (s : State) : s.bumpFree.ladder = s.ladder := rfl
@[simp] theorem bumpFree_quiesce (s : State) : s.bumpFree.quiesce = s.quiesce := rfl
@[simp] theorem bumpFree_times (s : State) : s.bumpFree.times = s.times := rfl
@[simp] theorem bumpFree_links (s : State) : s.bumpFree.links = s.links := rfl
@[simp] theorem bumpFree_flt (s : State) : s.bumpFree.flt = s.flt := rfl
@[simp] theorem bumpFree_otp (s : State) : s.bumpFree.otp = s.otp := rfl
@[simp] theorem bumpFree_thm (s : State) : s.bumpFree.thm = s.thm := rfl
@[simp] theorem bumpFree_cal (s : State) : s.bumpFree.cal = s.cal := rfl
@[simp] theorem bumpFree_top (s : State) : s.bumpFree.top = s.top := rfl
@[simp] theorem bumpFree_fab (s : State) : s.bumpFree.fab = s.fab := rfl
@[simp] theorem bumpFree_axes (s : State) : s.bumpFree.axes = s.axes := rfl
@[simp] theorem bumpFree_cores (s : State) : s.bumpFree.cores = s.cores := rfl
@[simp] theorem bumpFree_tlks (s : State) : s.bumpFree.tlks = s.tlks := rfl
@[simp] theorem bumpFree_nodes (s : State) : s.bumpFree.nodes = s.nodes := rfl
@[simp] theorem bumpFree_ports (s : State) : s.bumpFree.ports = s.ports := rfl
@[simp] theorem bumpFree_dma (s : State) : s.bumpFree.dma = s.dma := rfl
@[simp] theorem bumpFree_mem (s : State) : s.bumpFree.mem = s.mem := rfl
@[simp] theorem bumpFree_host (s : State) : s.bumpFree.host = s.host := rfl
@[simp] theorem bumpFree_env (s : State) : s.bumpFree.env = s.env := rfl
@[simp] theorem bumpFree_free (s : State) : s.bumpFree.free = s.free + 1 := rfl
@[simp] theorem bumpFree_pending (s : State) : s.bumpFree.pending = s.pending := rfl

/-! ## onSprig -/

@[simp] theorem onSprig_sys (s : State) (n : Fin 96) (f : Sprig → Sprig) : (s.onSprig n f).sys = s.sys := rfl
@[simp] theorem onSprig_ladder (s : State) (n : Fin 96) (f : Sprig → Sprig) : (s.onSprig n f).ladder = s.ladder := rfl
@[simp] theorem onSprig_quiesce (s : State) (n : Fin 96) (f : Sprig → Sprig) : (s.onSprig n f).quiesce = s.quiesce := rfl
@[simp] theorem onSprig_times (s : State) (n : Fin 96) (f : Sprig → Sprig) : (s.onSprig n f).times = s.times := rfl
@[simp] theorem onSprig_links (s : State) (n : Fin 96) (f : Sprig → Sprig) : (s.onSprig n f).links = s.links := rfl
@[simp] theorem onSprig_flt (s : State) (n : Fin 96) (f : Sprig → Sprig) : (s.onSprig n f).flt = s.flt := rfl
@[simp] theorem onSprig_otp (s : State) (n : Fin 96) (f : Sprig → Sprig) : (s.onSprig n f).otp = s.otp := rfl
@[simp] theorem onSprig_thm (s : State) (n : Fin 96) (f : Sprig → Sprig) : (s.onSprig n f).thm = s.thm := rfl
@[simp] theorem onSprig_cal (s : State) (n : Fin 96) (f : Sprig → Sprig) : (s.onSprig n f).cal = s.cal := rfl
@[simp] theorem onSprig_top (s : State) (n : Fin 96) (f : Sprig → Sprig) : (s.onSprig n f).top = s.top := rfl
@[simp] theorem onSprig_axes (s : State) (n : Fin 96) (f : Sprig → Sprig) : (s.onSprig n f).axes = s.axes := rfl
@[simp] theorem onSprig_cores (s : State) (n : Fin 96) (f : Sprig → Sprig) : (s.onSprig n f).cores = s.cores := rfl
@[simp] theorem onSprig_tlks (s : State) (n : Fin 96) (f : Sprig → Sprig) : (s.onSprig n f).tlks = s.tlks := rfl
@[simp] theorem onSprig_nodes (s : State) (n : Fin 96) (f : Sprig → Sprig) : (s.onSprig n f).nodes = s.nodes := rfl
@[simp] theorem onSprig_ports (s : State) (n : Fin 96) (f : Sprig → Sprig) : (s.onSprig n f).ports = s.ports := rfl
@[simp] theorem onSprig_dma (s : State) (n : Fin 96) (f : Sprig → Sprig) : (s.onSprig n f).dma = s.dma := rfl
@[simp] theorem onSprig_mem (s : State) (n : Fin 96) (f : Sprig → Sprig) : (s.onSprig n f).mem = s.mem := rfl
@[simp] theorem onSprig_host (s : State) (n : Fin 96) (f : Sprig → Sprig) : (s.onSprig n f).host = s.host := rfl
@[simp] theorem onSprig_env (s : State) (n : Fin 96) (f : Sprig → Sprig) : (s.onSprig n f).env = s.env := rfl
@[simp] theorem onSprig_free (s : State) (n : Fin 96) (f : Sprig → Sprig) : (s.onSprig n f).free = s.free := rfl
@[simp] theorem onSprig_pending (s : State) (n : Fin 96) (f : Sprig → Sprig) : (s.onSprig n f).pending = s.pending := rfl
@[simp] theorem onSprig_sprig (s : State) (n : Fin 96) (f : Sprig → Sprig) : (s.onSprig n f).sprig n = f (s.sprig n) := upd_get_self _ _ _
theorem onSprig_sprig_ne (s : State) {n m : Fin 96} (h : m ≠ n) (f : Sprig → Sprig) : (s.onSprig n f).sprig m = s.sprig m := upd_get_ne _ h _

/-! ## onAxis -/

@[simp] theorem onAxis_sys (s : State) (n : Fin 8) (f : Axis → Axis) : (s.onAxis n f).sys = s.sys := rfl
@[simp] theorem onAxis_ladder (s : State) (n : Fin 8) (f : Axis → Axis) : (s.onAxis n f).ladder = s.ladder := rfl
@[simp] theorem onAxis_quiesce (s : State) (n : Fin 8) (f : Axis → Axis) : (s.onAxis n f).quiesce = s.quiesce := rfl
@[simp] theorem onAxis_times (s : State) (n : Fin 8) (f : Axis → Axis) : (s.onAxis n f).times = s.times := rfl
@[simp] theorem onAxis_links (s : State) (n : Fin 8) (f : Axis → Axis) : (s.onAxis n f).links = s.links := rfl
@[simp] theorem onAxis_flt (s : State) (n : Fin 8) (f : Axis → Axis) : (s.onAxis n f).flt = s.flt := rfl
@[simp] theorem onAxis_otp (s : State) (n : Fin 8) (f : Axis → Axis) : (s.onAxis n f).otp = s.otp := rfl
@[simp] theorem onAxis_thm (s : State) (n : Fin 8) (f : Axis → Axis) : (s.onAxis n f).thm = s.thm := rfl
@[simp] theorem onAxis_cal (s : State) (n : Fin 8) (f : Axis → Axis) : (s.onAxis n f).cal = s.cal := rfl
@[simp] theorem onAxis_top (s : State) (n : Fin 8) (f : Axis → Axis) : (s.onAxis n f).top = s.top := rfl
@[simp] theorem onAxis_fab (s : State) (n : Fin 8) (f : Axis → Axis) : (s.onAxis n f).fab = s.fab := rfl
@[simp] theorem onAxis_cores (s : State) (n : Fin 8) (f : Axis → Axis) : (s.onAxis n f).cores = s.cores := rfl
@[simp] theorem onAxis_tlks (s : State) (n : Fin 8) (f : Axis → Axis) : (s.onAxis n f).tlks = s.tlks := rfl
@[simp] theorem onAxis_nodes (s : State) (n : Fin 8) (f : Axis → Axis) : (s.onAxis n f).nodes = s.nodes := rfl
@[simp] theorem onAxis_ports (s : State) (n : Fin 8) (f : Axis → Axis) : (s.onAxis n f).ports = s.ports := rfl
@[simp] theorem onAxis_dma (s : State) (n : Fin 8) (f : Axis → Axis) : (s.onAxis n f).dma = s.dma := rfl
@[simp] theorem onAxis_mem (s : State) (n : Fin 8) (f : Axis → Axis) : (s.onAxis n f).mem = s.mem := rfl
@[simp] theorem onAxis_host (s : State) (n : Fin 8) (f : Axis → Axis) : (s.onAxis n f).host = s.host := rfl
@[simp] theorem onAxis_env (s : State) (n : Fin 8) (f : Axis → Axis) : (s.onAxis n f).env = s.env := rfl
@[simp] theorem onAxis_free (s : State) (n : Fin 8) (f : Axis → Axis) : (s.onAxis n f).free = s.free := rfl
@[simp] theorem onAxis_pending (s : State) (n : Fin 8) (f : Axis → Axis) : (s.onAxis n f).pending = s.pending := rfl
@[simp] theorem onAxis_axis (s : State) (n : Fin 8) (f : Axis → Axis) : (s.onAxis n f).axis n = f (s.axis n) := upd_get_self _ _ _
theorem onAxis_axis_ne (s : State) {n m : Fin 8} (h : m ≠ n) (f : Axis → Axis) : (s.onAxis n f).axis m = s.axis m := upd_get_ne _ h _

/-! ## onCore -/

@[simp] theorem onCore_sys (s : State) (n : Fin 4) (f : Core → Core) : (s.onCore n f).sys = s.sys := rfl
@[simp] theorem onCore_ladder (s : State) (n : Fin 4) (f : Core → Core) : (s.onCore n f).ladder = s.ladder := rfl
@[simp] theorem onCore_quiesce (s : State) (n : Fin 4) (f : Core → Core) : (s.onCore n f).quiesce = s.quiesce := rfl
@[simp] theorem onCore_times (s : State) (n : Fin 4) (f : Core → Core) : (s.onCore n f).times = s.times := rfl
@[simp] theorem onCore_links (s : State) (n : Fin 4) (f : Core → Core) : (s.onCore n f).links = s.links := rfl
@[simp] theorem onCore_flt (s : State) (n : Fin 4) (f : Core → Core) : (s.onCore n f).flt = s.flt := rfl
@[simp] theorem onCore_otp (s : State) (n : Fin 4) (f : Core → Core) : (s.onCore n f).otp = s.otp := rfl
@[simp] theorem onCore_thm (s : State) (n : Fin 4) (f : Core → Core) : (s.onCore n f).thm = s.thm := rfl
@[simp] theorem onCore_cal (s : State) (n : Fin 4) (f : Core → Core) : (s.onCore n f).cal = s.cal := rfl
@[simp] theorem onCore_top (s : State) (n : Fin 4) (f : Core → Core) : (s.onCore n f).top = s.top := rfl
@[simp] theorem onCore_fab (s : State) (n : Fin 4) (f : Core → Core) : (s.onCore n f).fab = s.fab := rfl
@[simp] theorem onCore_axes (s : State) (n : Fin 4) (f : Core → Core) : (s.onCore n f).axes = s.axes := rfl
@[simp] theorem onCore_tlks (s : State) (n : Fin 4) (f : Core → Core) : (s.onCore n f).tlks = s.tlks := rfl
@[simp] theorem onCore_nodes (s : State) (n : Fin 4) (f : Core → Core) : (s.onCore n f).nodes = s.nodes := rfl
@[simp] theorem onCore_ports (s : State) (n : Fin 4) (f : Core → Core) : (s.onCore n f).ports = s.ports := rfl
@[simp] theorem onCore_dma (s : State) (n : Fin 4) (f : Core → Core) : (s.onCore n f).dma = s.dma := rfl
@[simp] theorem onCore_mem (s : State) (n : Fin 4) (f : Core → Core) : (s.onCore n f).mem = s.mem := rfl
@[simp] theorem onCore_host (s : State) (n : Fin 4) (f : Core → Core) : (s.onCore n f).host = s.host := rfl
@[simp] theorem onCore_env (s : State) (n : Fin 4) (f : Core → Core) : (s.onCore n f).env = s.env := rfl
@[simp] theorem onCore_free (s : State) (n : Fin 4) (f : Core → Core) : (s.onCore n f).free = s.free := rfl
@[simp] theorem onCore_pending (s : State) (n : Fin 4) (f : Core → Core) : (s.onCore n f).pending = s.pending := rfl
@[simp] theorem onCore_core (s : State) (n : Fin 4) (f : Core → Core) : (s.onCore n f).core n = f (s.core n) := upd_get_self _ _ _
theorem onCore_core_ne (s : State) {n m : Fin 4} (h : m ≠ n) (f : Core → Core) : (s.onCore n f).core m = s.core m := upd_get_ne _ h _

/-! ## onSlot -/

@[simp] theorem onSlot_sys (s : State) (c : Fin 4) (i : Fin 24) (f : Slot → Slot) : (s.onSlot c i f).sys = s.sys := rfl
@[simp] theorem onSlot_ladder (s : State) (c : Fin 4) (i : Fin 24) (f : Slot → Slot) : (s.onSlot c i f).ladder = s.ladder := rfl
@[simp] theorem onSlot_quiesce (s : State) (c : Fin 4) (i : Fin 24) (f : Slot → Slot) : (s.onSlot c i f).quiesce = s.quiesce := rfl
@[simp] theorem onSlot_times (s : State) (c : Fin 4) (i : Fin 24) (f : Slot → Slot) : (s.onSlot c i f).times = s.times := rfl
@[simp] theorem onSlot_links (s : State) (c : Fin 4) (i : Fin 24) (f : Slot → Slot) : (s.onSlot c i f).links = s.links := rfl
@[simp] theorem onSlot_flt (s : State) (c : Fin 4) (i : Fin 24) (f : Slot → Slot) : (s.onSlot c i f).flt = s.flt := rfl
@[simp] theorem onSlot_otp (s : State) (c : Fin 4) (i : Fin 24) (f : Slot → Slot) : (s.onSlot c i f).otp = s.otp := rfl
@[simp] theorem onSlot_thm (s : State) (c : Fin 4) (i : Fin 24) (f : Slot → Slot) : (s.onSlot c i f).thm = s.thm := rfl
@[simp] theorem onSlot_cal (s : State) (c : Fin 4) (i : Fin 24) (f : Slot → Slot) : (s.onSlot c i f).cal = s.cal := rfl
@[simp] theorem onSlot_top (s : State) (c : Fin 4) (i : Fin 24) (f : Slot → Slot) : (s.onSlot c i f).top = s.top := rfl
@[simp] theorem onSlot_fab (s : State) (c : Fin 4) (i : Fin 24) (f : Slot → Slot) : (s.onSlot c i f).fab = s.fab := rfl
@[simp] theorem onSlot_axes (s : State) (c : Fin 4) (i : Fin 24) (f : Slot → Slot) : (s.onSlot c i f).axes = s.axes := rfl
@[simp] theorem onSlot_tlks (s : State) (c : Fin 4) (i : Fin 24) (f : Slot → Slot) : (s.onSlot c i f).tlks = s.tlks := rfl
@[simp] theorem onSlot_nodes (s : State) (c : Fin 4) (i : Fin 24) (f : Slot → Slot) : (s.onSlot c i f).nodes = s.nodes := rfl
@[simp] theorem onSlot_ports (s : State) (c : Fin 4) (i : Fin 24) (f : Slot → Slot) : (s.onSlot c i f).ports = s.ports := rfl
@[simp] theorem onSlot_dma (s : State) (c : Fin 4) (i : Fin 24) (f : Slot → Slot) : (s.onSlot c i f).dma = s.dma := rfl
@[simp] theorem onSlot_mem (s : State) (c : Fin 4) (i : Fin 24) (f : Slot → Slot) : (s.onSlot c i f).mem = s.mem := rfl
@[simp] theorem onSlot_host (s : State) (c : Fin 4) (i : Fin 24) (f : Slot → Slot) : (s.onSlot c i f).host = s.host := rfl
@[simp] theorem onSlot_env (s : State) (c : Fin 4) (i : Fin 24) (f : Slot → Slot) : (s.onSlot c i f).env = s.env := rfl
@[simp] theorem onSlot_free (s : State) (c : Fin 4) (i : Fin 24) (f : Slot → Slot) : (s.onSlot c i f).free = s.free := rfl
@[simp] theorem onSlot_pending (s : State) (c : Fin 4) (i : Fin 24) (f : Slot → Slot) : (s.onSlot c i f).pending = s.pending := rfl

/-! ## onTlk -/

@[simp] theorem onTlk_sys (s : State) (n : Fin 8) (f : Tlk → Tlk) : (s.onTlk n f).sys = s.sys := rfl
@[simp] theorem onTlk_ladder (s : State) (n : Fin 8) (f : Tlk → Tlk) : (s.onTlk n f).ladder = s.ladder := rfl
@[simp] theorem onTlk_quiesce (s : State) (n : Fin 8) (f : Tlk → Tlk) : (s.onTlk n f).quiesce = s.quiesce := rfl
@[simp] theorem onTlk_times (s : State) (n : Fin 8) (f : Tlk → Tlk) : (s.onTlk n f).times = s.times := rfl
@[simp] theorem onTlk_links (s : State) (n : Fin 8) (f : Tlk → Tlk) : (s.onTlk n f).links = s.links := rfl
@[simp] theorem onTlk_flt (s : State) (n : Fin 8) (f : Tlk → Tlk) : (s.onTlk n f).flt = s.flt := rfl
@[simp] theorem onTlk_otp (s : State) (n : Fin 8) (f : Tlk → Tlk) : (s.onTlk n f).otp = s.otp := rfl
@[simp] theorem onTlk_thm (s : State) (n : Fin 8) (f : Tlk → Tlk) : (s.onTlk n f).thm = s.thm := rfl
@[simp] theorem onTlk_cal (s : State) (n : Fin 8) (f : Tlk → Tlk) : (s.onTlk n f).cal = s.cal := rfl
@[simp] theorem onTlk_top (s : State) (n : Fin 8) (f : Tlk → Tlk) : (s.onTlk n f).top = s.top := rfl
@[simp] theorem onTlk_fab (s : State) (n : Fin 8) (f : Tlk → Tlk) : (s.onTlk n f).fab = s.fab := rfl
@[simp] theorem onTlk_axes (s : State) (n : Fin 8) (f : Tlk → Tlk) : (s.onTlk n f).axes = s.axes := rfl
@[simp] theorem onTlk_cores (s : State) (n : Fin 8) (f : Tlk → Tlk) : (s.onTlk n f).cores = s.cores := rfl
@[simp] theorem onTlk_nodes (s : State) (n : Fin 8) (f : Tlk → Tlk) : (s.onTlk n f).nodes = s.nodes := rfl
@[simp] theorem onTlk_ports (s : State) (n : Fin 8) (f : Tlk → Tlk) : (s.onTlk n f).ports = s.ports := rfl
@[simp] theorem onTlk_dma (s : State) (n : Fin 8) (f : Tlk → Tlk) : (s.onTlk n f).dma = s.dma := rfl
@[simp] theorem onTlk_mem (s : State) (n : Fin 8) (f : Tlk → Tlk) : (s.onTlk n f).mem = s.mem := rfl
@[simp] theorem onTlk_host (s : State) (n : Fin 8) (f : Tlk → Tlk) : (s.onTlk n f).host = s.host := rfl
@[simp] theorem onTlk_env (s : State) (n : Fin 8) (f : Tlk → Tlk) : (s.onTlk n f).env = s.env := rfl
@[simp] theorem onTlk_free (s : State) (n : Fin 8) (f : Tlk → Tlk) : (s.onTlk n f).free = s.free := rfl
@[simp] theorem onTlk_pending (s : State) (n : Fin 8) (f : Tlk → Tlk) : (s.onTlk n f).pending = s.pending := rfl
@[simp] theorem onTlk_tlk (s : State) (n : Fin 8) (f : Tlk → Tlk) : (s.onTlk n f).tlk n = f (s.tlk n) := upd_get_self _ _ _
theorem onTlk_tlk_ne (s : State) {n m : Fin 8} (h : m ≠ n) (f : Tlk → Tlk) : (s.onTlk n f).tlk m = s.tlk m := upd_get_ne _ h _

/-! ## onTNode -/

@[simp] theorem onTNode_sys (s : State) (n : Fin 8) (p : Fin 8) (f : TNode → TNode) : (s.onTNode n p f).sys = s.sys := rfl
@[simp] theorem onTNode_ladder (s : State) (n : Fin 8) (p : Fin 8) (f : TNode → TNode) : (s.onTNode n p f).ladder = s.ladder := rfl
@[simp] theorem onTNode_quiesce (s : State) (n : Fin 8) (p : Fin 8) (f : TNode → TNode) : (s.onTNode n p f).quiesce = s.quiesce := rfl
@[simp] theorem onTNode_times (s : State) (n : Fin 8) (p : Fin 8) (f : TNode → TNode) : (s.onTNode n p f).times = s.times := rfl
@[simp] theorem onTNode_links (s : State) (n : Fin 8) (p : Fin 8) (f : TNode → TNode) : (s.onTNode n p f).links = s.links := rfl
@[simp] theorem onTNode_flt (s : State) (n : Fin 8) (p : Fin 8) (f : TNode → TNode) : (s.onTNode n p f).flt = s.flt := rfl
@[simp] theorem onTNode_otp (s : State) (n : Fin 8) (p : Fin 8) (f : TNode → TNode) : (s.onTNode n p f).otp = s.otp := rfl
@[simp] theorem onTNode_thm (s : State) (n : Fin 8) (p : Fin 8) (f : TNode → TNode) : (s.onTNode n p f).thm = s.thm := rfl
@[simp] theorem onTNode_cal (s : State) (n : Fin 8) (p : Fin 8) (f : TNode → TNode) : (s.onTNode n p f).cal = s.cal := rfl
@[simp] theorem onTNode_top (s : State) (n : Fin 8) (p : Fin 8) (f : TNode → TNode) : (s.onTNode n p f).top = s.top := rfl
@[simp] theorem onTNode_fab (s : State) (n : Fin 8) (p : Fin 8) (f : TNode → TNode) : (s.onTNode n p f).fab = s.fab := rfl
@[simp] theorem onTNode_axes (s : State) (n : Fin 8) (p : Fin 8) (f : TNode → TNode) : (s.onTNode n p f).axes = s.axes := rfl
@[simp] theorem onTNode_cores (s : State) (n : Fin 8) (p : Fin 8) (f : TNode → TNode) : (s.onTNode n p f).cores = s.cores := rfl
@[simp] theorem onTNode_nodes (s : State) (n : Fin 8) (p : Fin 8) (f : TNode → TNode) : (s.onTNode n p f).nodes = s.nodes := rfl
@[simp] theorem onTNode_ports (s : State) (n : Fin 8) (p : Fin 8) (f : TNode → TNode) : (s.onTNode n p f).ports = s.ports := rfl
@[simp] theorem onTNode_dma (s : State) (n : Fin 8) (p : Fin 8) (f : TNode → TNode) : (s.onTNode n p f).dma = s.dma := rfl
@[simp] theorem onTNode_mem (s : State) (n : Fin 8) (p : Fin 8) (f : TNode → TNode) : (s.onTNode n p f).mem = s.mem := rfl
@[simp] theorem onTNode_host (s : State) (n : Fin 8) (p : Fin 8) (f : TNode → TNode) : (s.onTNode n p f).host = s.host := rfl
@[simp] theorem onTNode_env (s : State) (n : Fin 8) (p : Fin 8) (f : TNode → TNode) : (s.onTNode n p f).env = s.env := rfl
@[simp] theorem onTNode_free (s : State) (n : Fin 8) (p : Fin 8) (f : TNode → TNode) : (s.onTNode n p f).free = s.free := rfl
@[simp] theorem onTNode_pending (s : State) (n : Fin 8) (p : Fin 8) (f : TNode → TNode) : (s.onTNode n p f).pending = s.pending := rfl

/-! ## onNode -/

@[simp] theorem onNode_sys (s : State) (n : Fin 8) (p : Fin 8) (f : Node → Node) : (s.onNode n p f).sys = s.sys := rfl
@[simp] theorem onNode_ladder (s : State) (n : Fin 8) (p : Fin 8) (f : Node → Node) : (s.onNode n p f).ladder = s.ladder := rfl
@[simp] theorem onNode_quiesce (s : State) (n : Fin 8) (p : Fin 8) (f : Node → Node) : (s.onNode n p f).quiesce = s.quiesce := rfl
@[simp] theorem onNode_times (s : State) (n : Fin 8) (p : Fin 8) (f : Node → Node) : (s.onNode n p f).times = s.times := rfl
@[simp] theorem onNode_links (s : State) (n : Fin 8) (p : Fin 8) (f : Node → Node) : (s.onNode n p f).links = s.links := rfl
@[simp] theorem onNode_flt (s : State) (n : Fin 8) (p : Fin 8) (f : Node → Node) : (s.onNode n p f).flt = s.flt := rfl
@[simp] theorem onNode_otp (s : State) (n : Fin 8) (p : Fin 8) (f : Node → Node) : (s.onNode n p f).otp = s.otp := rfl
@[simp] theorem onNode_thm (s : State) (n : Fin 8) (p : Fin 8) (f : Node → Node) : (s.onNode n p f).thm = s.thm := rfl
@[simp] theorem onNode_cal (s : State) (n : Fin 8) (p : Fin 8) (f : Node → Node) : (s.onNode n p f).cal = s.cal := rfl
@[simp] theorem onNode_top (s : State) (n : Fin 8) (p : Fin 8) (f : Node → Node) : (s.onNode n p f).top = s.top := rfl
@[simp] theorem onNode_fab (s : State) (n : Fin 8) (p : Fin 8) (f : Node → Node) : (s.onNode n p f).fab = s.fab := rfl
@[simp] theorem onNode_axes (s : State) (n : Fin 8) (p : Fin 8) (f : Node → Node) : (s.onNode n p f).axes = s.axes := rfl
@[simp] theorem onNode_cores (s : State) (n : Fin 8) (p : Fin 8) (f : Node → Node) : (s.onNode n p f).cores = s.cores := rfl
@[simp] theorem onNode_tlks (s : State) (n : Fin 8) (p : Fin 8) (f : Node → Node) : (s.onNode n p f).tlks = s.tlks := rfl
@[simp] theorem onNode_ports (s : State) (n : Fin 8) (p : Fin 8) (f : Node → Node) : (s.onNode n p f).ports = s.ports := rfl
@[simp] theorem onNode_dma (s : State) (n : Fin 8) (p : Fin 8) (f : Node → Node) : (s.onNode n p f).dma = s.dma := rfl
@[simp] theorem onNode_mem (s : State) (n : Fin 8) (p : Fin 8) (f : Node → Node) : (s.onNode n p f).mem = s.mem := rfl
@[simp] theorem onNode_host (s : State) (n : Fin 8) (p : Fin 8) (f : Node → Node) : (s.onNode n p f).host = s.host := rfl
@[simp] theorem onNode_env (s : State) (n : Fin 8) (p : Fin 8) (f : Node → Node) : (s.onNode n p f).env = s.env := rfl
@[simp] theorem onNode_free (s : State) (n : Fin 8) (p : Fin 8) (f : Node → Node) : (s.onNode n p f).free = s.free := rfl
@[simp] theorem onNode_pending (s : State) (n : Fin 8) (p : Fin 8) (f : Node → Node) : (s.onNode n p f).pending = s.pending := rfl

/-! ## onPort -/

@[simp] theorem onPort_sys (s : State) (n : Fin 4) (f : Port → Port) : (s.onPort n f).sys = s.sys := rfl
@[simp] theorem onPort_ladder (s : State) (n : Fin 4) (f : Port → Port) : (s.onPort n f).ladder = s.ladder := rfl
@[simp] theorem onPort_quiesce (s : State) (n : Fin 4) (f : Port → Port) : (s.onPort n f).quiesce = s.quiesce := rfl
@[simp] theorem onPort_times (s : State) (n : Fin 4) (f : Port → Port) : (s.onPort n f).times = s.times := rfl
@[simp] theorem onPort_links (s : State) (n : Fin 4) (f : Port → Port) : (s.onPort n f).links = s.links := rfl
@[simp] theorem onPort_flt (s : State) (n : Fin 4) (f : Port → Port) : (s.onPort n f).flt = s.flt := rfl
@[simp] theorem onPort_otp (s : State) (n : Fin 4) (f : Port → Port) : (s.onPort n f).otp = s.otp := rfl
@[simp] theorem onPort_thm (s : State) (n : Fin 4) (f : Port → Port) : (s.onPort n f).thm = s.thm := rfl
@[simp] theorem onPort_cal (s : State) (n : Fin 4) (f : Port → Port) : (s.onPort n f).cal = s.cal := rfl
@[simp] theorem onPort_top (s : State) (n : Fin 4) (f : Port → Port) : (s.onPort n f).top = s.top := rfl
@[simp] theorem onPort_fab (s : State) (n : Fin 4) (f : Port → Port) : (s.onPort n f).fab = s.fab := rfl
@[simp] theorem onPort_axes (s : State) (n : Fin 4) (f : Port → Port) : (s.onPort n f).axes = s.axes := rfl
@[simp] theorem onPort_cores (s : State) (n : Fin 4) (f : Port → Port) : (s.onPort n f).cores = s.cores := rfl
@[simp] theorem onPort_tlks (s : State) (n : Fin 4) (f : Port → Port) : (s.onPort n f).tlks = s.tlks := rfl
@[simp] theorem onPort_nodes (s : State) (n : Fin 4) (f : Port → Port) : (s.onPort n f).nodes = s.nodes := rfl
@[simp] theorem onPort_dma (s : State) (n : Fin 4) (f : Port → Port) : (s.onPort n f).dma = s.dma := rfl
@[simp] theorem onPort_mem (s : State) (n : Fin 4) (f : Port → Port) : (s.onPort n f).mem = s.mem := rfl
@[simp] theorem onPort_host (s : State) (n : Fin 4) (f : Port → Port) : (s.onPort n f).host = s.host := rfl
@[simp] theorem onPort_env (s : State) (n : Fin 4) (f : Port → Port) : (s.onPort n f).env = s.env := rfl
@[simp] theorem onPort_free (s : State) (n : Fin 4) (f : Port → Port) : (s.onPort n f).free = s.free := rfl
@[simp] theorem onPort_pending (s : State) (n : Fin 4) (f : Port → Port) : (s.onPort n f).pending = s.pending := rfl
@[simp] theorem onPort_port (s : State) (n : Fin 4) (f : Port → Port) : (s.onPort n f).port n = f (s.port n) := upd_get_self _ _ _
theorem onPort_port_ne (s : State) {n m : Fin 4} (h : m ≠ n) (f : Port → Port) : (s.onPort n f).port m = s.port m := upd_get_ne _ h _

/-! ## onChan -/

@[simp] theorem onChan_sys (s : State) (n : Fin 64) (f : Chan → Chan) : (s.onChan n f).sys = s.sys := rfl
@[simp] theorem onChan_ladder (s : State) (n : Fin 64) (f : Chan → Chan) : (s.onChan n f).ladder = s.ladder := rfl
@[simp] theorem onChan_quiesce (s : State) (n : Fin 64) (f : Chan → Chan) : (s.onChan n f).quiesce = s.quiesce := rfl
@[simp] theorem onChan_times (s : State) (n : Fin 64) (f : Chan → Chan) : (s.onChan n f).times = s.times := rfl
@[simp] theorem onChan_links (s : State) (n : Fin 64) (f : Chan → Chan) : (s.onChan n f).links = s.links := rfl
@[simp] theorem onChan_flt (s : State) (n : Fin 64) (f : Chan → Chan) : (s.onChan n f).flt = s.flt := rfl
@[simp] theorem onChan_otp (s : State) (n : Fin 64) (f : Chan → Chan) : (s.onChan n f).otp = s.otp := rfl
@[simp] theorem onChan_thm (s : State) (n : Fin 64) (f : Chan → Chan) : (s.onChan n f).thm = s.thm := rfl
@[simp] theorem onChan_cal (s : State) (n : Fin 64) (f : Chan → Chan) : (s.onChan n f).cal = s.cal := rfl
@[simp] theorem onChan_top (s : State) (n : Fin 64) (f : Chan → Chan) : (s.onChan n f).top = s.top := rfl
@[simp] theorem onChan_fab (s : State) (n : Fin 64) (f : Chan → Chan) : (s.onChan n f).fab = s.fab := rfl
@[simp] theorem onChan_axes (s : State) (n : Fin 64) (f : Chan → Chan) : (s.onChan n f).axes = s.axes := rfl
@[simp] theorem onChan_cores (s : State) (n : Fin 64) (f : Chan → Chan) : (s.onChan n f).cores = s.cores := rfl
@[simp] theorem onChan_tlks (s : State) (n : Fin 64) (f : Chan → Chan) : (s.onChan n f).tlks = s.tlks := rfl
@[simp] theorem onChan_nodes (s : State) (n : Fin 64) (f : Chan → Chan) : (s.onChan n f).nodes = s.nodes := rfl
@[simp] theorem onChan_ports (s : State) (n : Fin 64) (f : Chan → Chan) : (s.onChan n f).ports = s.ports := rfl
@[simp] theorem onChan_mem (s : State) (n : Fin 64) (f : Chan → Chan) : (s.onChan n f).mem = s.mem := rfl
@[simp] theorem onChan_host (s : State) (n : Fin 64) (f : Chan → Chan) : (s.onChan n f).host = s.host := rfl
@[simp] theorem onChan_env (s : State) (n : Fin 64) (f : Chan → Chan) : (s.onChan n f).env = s.env := rfl
@[simp] theorem onChan_free (s : State) (n : Fin 64) (f : Chan → Chan) : (s.onChan n f).free = s.free := rfl
@[simp] theorem onChan_pending (s : State) (n : Fin 64) (f : Chan → Chan) : (s.onChan n f).pending = s.pending := rfl
@[simp] theorem onChan_chan (s : State) (n : Fin 64) (f : Chan → Chan) : (s.onChan n f).chan n = f (s.chan n) := upd_get_self _ _ _
theorem onChan_chan_ne (s : State) {n m : Fin 64} (h : m ≠ n) (f : Chan → Chan) : (s.onChan n f).chan m = s.chan m := upd_get_ne _ h _

/-! ## onEngine -/

@[simp] theorem onEngine_sys (s : State) (n : Fin 4) (f : Engine → Engine) : (s.onEngine n f).sys = s.sys := rfl
@[simp] theorem onEngine_ladder (s : State) (n : Fin 4) (f : Engine → Engine) : (s.onEngine n f).ladder = s.ladder := rfl
@[simp] theorem onEngine_quiesce (s : State) (n : Fin 4) (f : Engine → Engine) : (s.onEngine n f).quiesce = s.quiesce := rfl
@[simp] theorem onEngine_times (s : State) (n : Fin 4) (f : Engine → Engine) : (s.onEngine n f).times = s.times := rfl
@[simp] theorem onEngine_links (s : State) (n : Fin 4) (f : Engine → Engine) : (s.onEngine n f).links = s.links := rfl
@[simp] theorem onEngine_flt (s : State) (n : Fin 4) (f : Engine → Engine) : (s.onEngine n f).flt = s.flt := rfl
@[simp] theorem onEngine_otp (s : State) (n : Fin 4) (f : Engine → Engine) : (s.onEngine n f).otp = s.otp := rfl
@[simp] theorem onEngine_thm (s : State) (n : Fin 4) (f : Engine → Engine) : (s.onEngine n f).thm = s.thm := rfl
@[simp] theorem onEngine_cal (s : State) (n : Fin 4) (f : Engine → Engine) : (s.onEngine n f).cal = s.cal := rfl
@[simp] theorem onEngine_top (s : State) (n : Fin 4) (f : Engine → Engine) : (s.onEngine n f).top = s.top := rfl
@[simp] theorem onEngine_fab (s : State) (n : Fin 4) (f : Engine → Engine) : (s.onEngine n f).fab = s.fab := rfl
@[simp] theorem onEngine_axes (s : State) (n : Fin 4) (f : Engine → Engine) : (s.onEngine n f).axes = s.axes := rfl
@[simp] theorem onEngine_cores (s : State) (n : Fin 4) (f : Engine → Engine) : (s.onEngine n f).cores = s.cores := rfl
@[simp] theorem onEngine_tlks (s : State) (n : Fin 4) (f : Engine → Engine) : (s.onEngine n f).tlks = s.tlks := rfl
@[simp] theorem onEngine_nodes (s : State) (n : Fin 4) (f : Engine → Engine) : (s.onEngine n f).nodes = s.nodes := rfl
@[simp] theorem onEngine_ports (s : State) (n : Fin 4) (f : Engine → Engine) : (s.onEngine n f).ports = s.ports := rfl
@[simp] theorem onEngine_mem (s : State) (n : Fin 4) (f : Engine → Engine) : (s.onEngine n f).mem = s.mem := rfl
@[simp] theorem onEngine_host (s : State) (n : Fin 4) (f : Engine → Engine) : (s.onEngine n f).host = s.host := rfl
@[simp] theorem onEngine_env (s : State) (n : Fin 4) (f : Engine → Engine) : (s.onEngine n f).env = s.env := rfl
@[simp] theorem onEngine_free (s : State) (n : Fin 4) (f : Engine → Engine) : (s.onEngine n f).free = s.free := rfl
@[simp] theorem onEngine_pending (s : State) (n : Fin 4) (f : Engine → Engine) : (s.onEngine n f).pending = s.pending := rfl
@[simp] theorem onEngine_engine (s : State) (n : Fin 4) (f : Engine → Engine) : (s.onEngine n f).engine n = f (s.engine n) := upd_get_self _ _ _
theorem onEngine_engine_ne (s : State) {n m : Fin 4} (h : m ≠ n) (f : Engine → Engine) : (s.onEngine n f).engine m = s.engine m := upd_get_ne _ h _

/-! ## Slots and nodes -/

@[simp] theorem onSlot_slot (s : State) (c : Fin 4) (i : Fin 24) (f : Slot → Slot) : (s.onSlot c i f).slot c i = f (s.slot c i) := by
  simp [onSlot, slot]

theorem onSlot_slot_ne (s : State) {c d : Fin 4} {i j : Fin 24} (h : (d, j) ≠ (c, i)) (f : Slot → Slot) :
    (s.onSlot c i f).slot d j = s.slot d j := by
  by_cases e : d = c
  · subst e
    have : j ≠ i := fun x => h (by rw [x])
    simp only [onSlot, slot, onCore_core]
    exact upd_get_ne _ this _
  · simp only [onSlot, slot, onCore_core_ne s e]

@[simp] theorem onTNode_tnode (s : State) (n p : Fin 8) (f : TNode → TNode) : (s.onTNode n p f).tnode n p = f (s.tnode n p) := by
  simp [onTNode, tnode]

theorem onTNode_tnode_ne (s : State) {n m p q : Fin 8} (h : (m, q) ≠ (n, p)) (f : TNode → TNode) :
    (s.onTNode n p f).tnode m q = s.tnode m q := by
  by_cases e : m = n
  · subst e
    have : q ≠ p := fun x => h (by rw [x])
    simp only [onTNode, tnode, onTlk_tlk]
    exact upd_get_ne _ this _
  · simp only [onTNode, tnode, onTlk_tlk_ne s e]

@[simp] theorem onNode_node (s : State) (n p : Fin 8) (f : Node → Node) : (s.onNode n p f).node n p = f (s.node n p) := by
  simp [onNode, node]

theorem onNode_node_ne (s : State) {n m p q : Fin 8} (h : (m, q) ≠ (n, p)) (f : Node → Node) :
    (s.onNode n p f).node m q = s.node m q := by
  by_cases e : m = n
  · subst e
    have : q ≠ p := fun x => h (by rw [x])
    simp only [onNode, node, onNodes_nodes, upd_get_self]
    exact upd_get_ne _ this _
  · have := upd_get_ne s.nodes e fun w => upd w p f
    simp only [onNode, node, onNodes_nodes, this]

end State

end Sys2Proof.Machine
end

