-- ==== Sys2Proof/Laws/Ops.lean ====
section
/-!
SUPPORT. What the shared operations can do, said once: accesses to registers of each plane, a signal to the host, a detection and its
reactions.
-/

namespace Sys2Proof.Machine

theorem completes_next {c : Instr} {s t : State} {p : State → Prop} (h : exec c s = .next t) : completes c s p ↔ p t := by
  constructor
  · rintro ⟨u, e, q⟩
    rw [h] at e
    cases e
    exact q
  · exact fun q => ⟨t, h, q⟩

namespace State

/-! ## Where registers are served -/

theorem served_of_clocked {s : State} (h : s.clocked = true) : s.mgmtServed = true := by
  simp [clocked, running, mgmtServed] at *
  obtain ⟨⟨p, r⟩, -⟩ := h
  simp [p]
  omega

theorem mgmtWrite_served {s : State} (f : State → State) (h : s.mgmtServed = true) : s.mgmtWrite f = f s := by simp [mgmtWrite, h]

theorem mgmtWrite_unserved {s : State} (f : State → State) (h : s.mgmtServed = false) : s.mgmtWrite f = s := by simp [mgmtWrite, h]

theorem mgmtRead_served {s : State} (w : State → Word) (f : State → State) (h : s.mgmtServed = true) : s.mgmtRead w f = (f s).ret (w s) := by
  simp [mgmtRead, h]

theorem mgmtRead_unserved {s : State} (w : State → Word) (f : State → State) (h : s.mgmtServed = false) : s.mgmtRead w f = s.ret 0 := by
  simp [mgmtRead, h]

theorem planeWrite_present {s : State} (offset : Nat) (f : State → State) (h : s.clocked = true) : s.planeWrite true offset f = f s := by
  simp [planeWrite, h]

theorem planeWrite_absent {s : State} (offset : Nat) (f : State → State) (h : s.clocked = true) :
    s.planeWrite false offset f = s.raiseAbsent offset := by simp [planeWrite, h]

theorem planeWrite_deep {s : State} (present : Bool) (offset : Nat) (f : State → State) (h : s.clocked = false) :
    s.planeWrite present offset f = s := by simp [planeWrite, h]

theorem planeRead_present {s : State} (offset : Nat) (w : State → Word) (f : State → State) (h : s.clocked = true) :
    s.planeRead true offset w f = (f s).ret (w s) := by simp [planeRead, h]

theorem planeRead_absent {s : State} (offset : Nat) (w : State → Word) (f : State → State) (h : s.clocked = true) :
    s.planeRead false offset w f = (s.raiseAbsent offset).ret 0 := by simp [planeRead, h]

theorem planeRead_deep {s : State} (present : Bool) (offset : Nat) (w : State → Word) (f : State → State) (h : s.clocked = false) :
    s.planeRead present offset w f = s.ret 0 := by simp [planeRead, h]

@[simp] theorem ret_host (s : State) (w : Word) : (s.ret w).host = { s.host with rdata := [w] } := rfl

/-! ## Signals and detections -/

/-- A message changes the host side alone. -/
theorem sendMsi_host (s : State) (v : Nat) : s.sendMsi v = { s with host := (s.sendMsi v).host } := rfl

theorem sendAll_host (l : List Nat) (s : State) :
    l.foldl (fun t v => t.sendMsi v) s = { s with host := (l.foldl (fun (t : State) v => t.sendMsi v) s).host } := by
  induction l generalizing s with
  | nil => rfl
  | cons v rest ih =>
    simp only [List.foldl_cons]
    rw [ih (s.sendMsi v)]
    rfl

/-- A source that resets no block of its own. -/
def resetsNoBlock (source : Nat) : Prop := source ≠ 0x20 ∧ source ≠ 0x30 ∧ source ≠ 0x37 ∧ source ≠ 0x53

theorem blockReset_none {source : Nat} (h : resetsNoBlock source) (index : Nat) (s : State) : s.blockReset source index = s := by
  unfold blockReset
  split
  · exact absurd rfl h.1
  · exact absurd rfl h.2.1
  · exact absurd rfl h.2.2.1
  · exact absurd rfl h.2.2.2
  · rfl

/-- What a detection does at once touches the collector and the thermal regime alone. -/
theorem signalFatal_frame (source : Nat) (s : State) :
    s.signalFatal source = { s with flt := Flt.signal source s.flt, thm := (s.signalFatal source).thm } := rfl

/-- Taking a detection touches the collector, what the host is sent, and an owed chip reset. -/
theorem collect_frame (d : Detection) (s : State) :
    s.collect d = { s with flt := Flt.collect d s.flt, host := (s.collect d).host, sys := (s.collect d).sys } := by
  unfold collect
  rw [sendAll_host]
  rfl

/-- No block is reset by a source that resets none, or whose reaction does not ask for it. -/
theorem resetBlock_none {d : Detection} (s : State) (h : resetsNoBlock d.source ∨ d.react.blkrst = false) : s.resetBlock d = s := by
  unfold resetBlock
  split
  · next c =>
    rcases h with h | h
    · exact blockReset_none h _ _
    · simp [h] at c
  · rfl

/-- A detection of the management plane that resets no block changes the collector, what the host is sent, the thermal regime and an owed
chip reset. -/
theorem detect_frame {d : Detection} (s : State) (h : resetsNoBlock d.source ∨ d.react.blkrst = false) :
    s.detect d = { s with flt := Flt.collect d (Flt.signal d.source s.flt), host := (s.detect d).host, thm := (s.detect d).thm
                          sys := (s.detect d).sys } := by
  unfold detect
  rw [resetBlock_none _ h, collect_frame]
  rfl

/-- A detection of another plane that resets no block changes the safe state and the regime of a fatal one, and its link. -/
theorem report_frame {d : Detection} (s : State) (h : resetsNoBlock d.source ∨ d.react.blkrst = false) :
    s.report d = { s with flt := Flt.signal d.source s.flt, thm := (s.report d).thm, links := (s.report d).links } := by
  unfold report
  split
  · rw [resetBlock_none _ h]
    rfl
  · next c =>
    have e : sourceInfo d.source = none := by simpa using c
    simp [Flt.signal, e]

/-- A source raised that resets no block changes the collector, the host side, the thermal regime, an owed chip reset and the message
links. -/
theorem raise_frame {source : Nat} (plane : Plane) (kind index : Nat) (s : State)
    (h : resetsNoBlock source ∨ (s.flt.reactOf source).blkrst = false) :
    s.raise plane source kind index = { s with
      flt := (s.raise plane source kind index).flt
      host := (s.raise plane source kind index).host
      thm := (s.raise plane source kind index).thm
      sys := (s.raise plane source kind index).sys
      links := (s.raise plane source kind index).links } := by
  unfold raise
  split
  · rw [detect_frame (d := s.detection plane source kind index) s h]
  · rw [report_frame (d := s.detection plane source kind index) s h]

end State

/-! ## The collector -/

/-- A detection keeps the collector's reactions and what was latched. -/
theorem Flt.collect_react (d : Detection) (f : Flt) : (f.collect d).react = f.react ∧ (f.collect d).latched = f.latched := by
  unfold Flt.collect Flt.record
  split
  · exact ⟨rfl, rfl⟩
  · simp only
    split <;> exact ⟨rfl, rfl⟩

/-- A fatal detection sets the safe state. -/
theorem Flt.signal_fatal {source : Nat} {i : SourceInfo} (f : Flt) (h : sourceInfo source = some i) (c : i.cls = 3) :
    (f.signal source).safe = true := by simp [Flt.signal, h, c]

end Sys2Proof.Machine
end

