-- ==== Sys2Proof/Tests/Slice0.lean ====
section
/-!
SUPPORT. Tests of the model: one ill-formed command per check of WellFormed.lean, values the spec states, and for each statement with
hypotheses a state and operands that meet them.
-/

namespace Sys2Proof.Tests

open Sys2Proof.Machine

set_option maxRecDepth 100000

/-! ## Ill-formed commands: each check refuses one, and the command is then refused by name -/

theorem test_empty_register_write_is_ill_formed : (Instr.registerWrite .spi 0 (.write [])).wellFormed = false := by decide
theorem test_window_offset_beyond_half : (Instr.hostWindowAccess .pcie 0x800000 (.read 4)).wellFormed = false := by decide
theorem test_window_access_of_nine_bytes : (Instr.hostWindowAccess .pcie 0 (.read 9)).wellFormed = false := by decide
theorem test_window_write_of_no_byte : (Instr.hostWindowAccess .pcie 0 (.write [])).wellFormed = false := by decide
theorem test_region_test_of_word_32 : (Instr.memCommandMessage 0 [32]).wellFormed = false := by decide
theorem test_poll_of_five_tries : (Instr.sidebandPoll 0 [.nak, .nak, .nak, .nak, .nak] 0 0 0).wellFormed = false := by decide
theorem test_transfer_goes_on_after_ack : (Instr.sbTransferDone 0 [.ack, .ack] 0).wellFormed = false := by decide
theorem test_tt_region_of_word_32 : (Instr.ttRegion [0, 32]).wellFormed = false := by decide
theorem test_spi_write_of_257_bytes : (Instr.spiWrite 0 (List.replicate 257 0)).wellFormed = false := by decide
theorem test_spi_read_of_no_byte : (Instr.spiRead 0 0).wellFormed = false := by decide
theorem test_ill_formed_is_refused : exec (.spiRead 0 0) State.reset = .refused .illFormed := rfl
theorem test_well_formed_write : (Instr.spiWrite 0 (List.replicate 256 0)).wellFormed = true := by decide

/-! ## Values the spec states -/

/-- R47 gives the check value of CRC-32. -/
theorem test_crc32_check_value :
    crc32 [0x31, 0x32, 0x33, 0x34, 0x35, 0x36, 0x37, 0x38, 0x39] = 0xCBF43926 := by decide
/-- R246's example: 0x01 has the check bits 0b1_0011. -/
theorem test_ecc_example : eccCheck (eccEncode 0x01) = 0b10011 := by decide
theorem test_ecc_corrects_position_3 : eccRead (eccEncode 0x5A ^^^ 4) = (0x5A, .corrected) := by decide
theorem test_flt_react32_reset : React.word 32 (defaultReact 32) = 0x00020321 := by decide

/-! ## Small states -/

/-- The part running at L0 with both planes clocked. -/
def up : State := { State.reset with sys := { State.reset.sys with phase := .running, pllLock := true, ref := .xi25 } }

def upAt (rung : Nat) : State := { up with ladder := { up.ladder with rung := rung } }

/-- Up, with an image in force that gives port 0 a profile on axis 0. -/
def withImage : State :=
  { up with top := { up.top with activeValid := true, image := { profiles := [{ nozzles := 8, shiftLen := 8 }] } } }

/-- Axis 0 fed by sprig 5 and settled at 100 steps per count. -/
def onAxis0 : State :=
  { withImage with
    times := { withImage.times with fab := 350 }
    axes := withImage.axes.set 0 { sprig := 5, fwd := 1, window := [(0, 0), (1, 100), (2, 200), (3, 300)], hwm := 3, lastFresh := some 300 }
    fab := { withImage.fab with sprigs := withImage.fab.sprigs.set 5 { mode := 3, quad := { count := 3 } } } }

/-- Port 0 armed on that axis, its anchor taken at count 3. -/
def armed : State :=
  { onAxis0 with ports := onAxis0.ports.set 0 { arm := { armed := true }, sos := { held := [⟨192, 0, true⟩] } } }

/-- `s` with its port 0 changed. -/
def port0 (f : Port → Port) (s : State) : State := s.onPort 0 f
/-- `s` with its sprig 0 changed. -/
def sprig0 (f : Sprig → Sprig) (s : State) : State := s.onSprig 0 f
/-- `s` with slot 0 of core 0 changed. -/
def slot0 (f : Slot → Slot) (s : State) : State := s.onSlot 0 0 f
/-- `s` with channel 0 changed. -/
def chan0 (f : Chan → Chan) (s : State) : State := s.onChan 0 f
/-- `s` with Tohevik port 0 changed. -/
def tlk0 (f : Tlk → Tlk) (s : State) : State := s.onTlk 0 f
/-- `s` with link direction `d` changed. -/
def dir0 (d : Fin 6) (f : LinkDir → LinkDir) (s : State) : State :=
  { s with links := { s.links with dirs := upd s.links.dirs d f } }
/-- `s` with one message delivered on direction `d`. -/
def delivered (d : Fin 6) (type : BitVec 8) (payload : BitVec 64) (s : State) : State :=
  dir0 d (fun l => { l with accepted := [linkMessage type 0 payload] }) s
/-- A fault record of a source. -/
def record (source kind index : Nat) (cls : Nat) : Record :=
  { id := 1, source := source, cls := cls, kind := kind, index := index, plane := .data, time := 0, mask := 1#128 <<< source, react := 0, vector := 0 }

/-! ## Hypotheses met: the step, links, faults -/

theorem witness_step_takes_front : ({ up with pending := [.validate] } : State).pending = .validate :: [] := rfl
theorem witness_empty_queue : up.pending = [] ∧ up.fabRuns = false ∧ up.loopRuns = false := by decide
theorem witness_fab_runs : ({ up with top := { up.top with image := { domains := 3 } } } : State).fabRuns = true ∧
    ({ up with top := { up.top with image := { domains := 3 } } } : State).loopRuns = true := by decide

/-- A message 0, 1, 127 and 128 ahead of the expected SEQ, and one with a wrong CRC, on a clocked part. -/
theorem witness_link_messages :
    up.clocked = true ∧ (∀ seq : Fin 4, let m := linkMessage 1 ((#[0, 1, 127, 128] : Array (BitVec 8)).getD seq.val 0) 7
      msgCrcOk m = true ∧ (msgSeq m - up.links.dirs[0].expected).toNat = (#[0, 1, 127, 128] : Array Nat).getD seq.val 0) ∧
    msgCrcOk (linkMessage 1 0 7 ^^^ 1) = false := by decide
theorem witness_link_replay :
    (up.clocked = true ∧ up.links.dirs[0].replayFrom = none ∧ ∀ x ∈ up.links.dirs[0].replays, x.2 < 8) ∧
    (let at' (n : Time48) : State := { up with times := { up.times with dev := n } }
     since (at' 47).times.dev up.links.dirs[0].sentAt < 48 ∧ 48 ≤ since (at' 48).times.dev up.links.dirs[0].sentAt ∧
       (at' 192).links.dirs[0].failed = false ∧ 192 ≤ since (at' 192).times.dev up.links.dirs[0].heard ∧
       ¬192 ≤ since (at' 191).times.dev up.links.dirs[0].heard) := by decide
theorem witness_link_exhausted :
    let l := (dir0 0 (fun l => { l with replays := [(3, 8)] }) up).links.dirs[0]
    ∃ x ∈ l.replays, 8 ≤ x.2 ∧ ∀ m ∈ l.wire, msgSeq m ≠ x.1 := ⟨(3, 8), by decide, by decide, fun _ h => nomatch h⟩

def permitted : State := { up with otp := { up.otp with force := up.otp.force.set 42 4 }, sys := { up.sys with permit := true } }
theorem witness_injection_permits :
    (up.mgmtServed = true ∧ up.mayInject = false ∧ up.injPermitted = false) ∧
    permitted.mgmtServed = true ∧ permitted.mayInject = true ∧ permitted.flt.safe = false ∧ permitted.links.inj.sel < 6 ∧
      permitted.links.inj.kind ≠ 2 ∧ permitted.links.inj.held = none ∧ permitted.injPermitted = true := by decide
theorem witness_reaction_write : up.mgmtServed = true ∧ (sourceInfo 0x20).isSome = true ∧ (sourceInfo 0x05).isSome = true := by decide

/-- A record in the merge unit of 0x30 on port 0; a full collector with and without its reserved entry. -/
def oneRecord : State := { up with flt := { up.flt with records := [record 0x30 4 0 2] } }
def fullRecords : State := { up with flt := { up.flt with records := List.replicate 32 (record 0x11 2 7 2) } }
theorem witness_detection_intake :
    (sourceInfo 0x30).isSome = true ∧ (up.flt.reactOf 0x30).blkrst = false ∧
    oneRecord.flt.records.any (fun r => mergeUnit r.kind r.index == mergeUnit 4 0) = true ∧
    up.flt.records.any (fun r => mergeUnit r.kind r.index == mergeUnit 4 0) = false ∧
    fullRecords.flt.records.any (fun r => mergeUnit r.kind r.index == mergeUnit 4 0) = false ∧
    32 ≤ (fullRecords.flt.records.filter fun r => !r.reserved).length ∧ fullRecords.flt.records.any (·.reserved) = false ∧
    (∃ i, sourceInfo 0x05 = some i ∧ i.cls = 3) ∧ ∃ i, sourceInfo 0x23 = some i ∧ i.cls ≠ 3 := by
  refine ⟨by decide, by decide, by decide, by decide, by decide, by decide, by decide, ⟨_, rfl, by decide⟩, ⟨_, rfl, by decide⟩⟩
/-- A report of 0x23 on port 0 that the data plane's link has delivered. -/
def reported : State :=
  dir0 4 (fun l => { l with reports := [up.detection .data 0x23 4 0] }) (delivered 4 0x20 0 up)
theorem witness_report_due :
    reported.mgmtClocked = true ∧ reported.reportDue .data = some (linkMessage 0x20 0 0, up.detection .data 0x23 4 0) ∧
    (sourceInfo 0x23).isSome = true ∧ (up.detection .data 0x23 4 0).kind = (4#8).toNat ∧ (up.detection .data 0x23 4 0).time = 0 := by decide
theorem witness_safe_state_end :
    let s : State := { up with flt := { up.flt with safe := true } }
    s.flt.safe = true ∧ s.mgmtServed = true ∧ (∀ r ∈ s.flt.records, r.cls ≠ 3) ∧ s.reportsUnderWay = [] ∧ s.thm.shut = false ∧ s.sys.clkLoss = 0 ∧
      s.flt.clockOrHeartbeat = false := by decide
theorem witness_safe_state_held :
    let s : State := { up with flt := { up.flt with safe := true, clockOrHeartbeat := true } }
    s.flt.safe = true ∧ s.mgmtServed = true ∧ ¬s.flt.clockOrHeartbeat = false := by decide
theorem witness_records :
    up.mgmtServed = true ∧ oneRecord.flt.nextRelease = some (record 0x30 4 0 2) ∧ releasable oneRecord.links (record 0x30 4 0 2) = true ∧
    up.flt.head = none ∧
    ({ up.flt with records := [{ record 0x30 4 0 2 with visible := true }] } : Flt).head = some { record 0x30 4 0 2 with visible := true } := by
  decide
theorem witness_heartbeats : up.clocked = true ∧ up.hasBlock 0 = true ∧ (upAt 2).clocked = false := by decide

/-! ## Hypotheses met: axes, lines, ports -/

theorem witness_axis_commands :
    up.clocked = true ∧ (up.axisArmed 0 = false ∧ (1#2).toNat ≠ (up.axis 0).fwd) ∧ armed.axisArmed 0 = true ∧
    (let s : State := { onAxis0 with times := { onAxis0.times with fab := 701 } }
     s.clocked = true ∧ (s.axis 0).tracking = true ∧ (s.axis 0).stalled = false ∧
       256 * (s.axis 0).quiet s.times.fab > 4 * (s.axis 0).b256) ∧
    (let s : State := { onAxis0 with times := { onAxis0.times with fab := 1101 }
                                     axes := onAxis0.axes.set 0 { onAxis0.axis 0 with exc := some 300 } }
     s.clocked = true ∧ (s.axis 0).exc = some 300 ∧ (s.axis 0).window.length = 4 ∧ 256 * since s.times.fab 300 > 8 * (s.axis 0).b256) := by
  decide
theorem witness_axis_unsettled :
    let s : State := { armed with axes := armed.axes.set 0 { armed.axis 0 with window := [] } }
    s.portAxis 0 = some 0 ∧ s.linePending 0 = true ∧ s.axisSettled 0 = false ∧ s.lineReached 0 0 = true ∧ (s.port 0).seam.state = 0 := by
  decide
/-- The window of the anchor expected at count 1 has passed. -/
def overdue : State :=
  port0 (fun q => { q with sos := { q.sos with held := [⟨0, 0, true⟩], lines := 1 } }) armed
theorem witness_sos_missing : overdue.portAxis 0 = some 0 ∧ overdue.clocked = true ∧ overdue.sosOverdue 0 0 = true ∧ (overdue.port 0).seam.state = 0 := by decide

/-- Line 0 of the armed port is due, valid and assembled. -/
def due : State := port0 (fun q => { q with pdp := { q.pdp with valid := [0], asm := [⟨0, [], [[]]⟩], assembled := 0 } }) armed
theorem witness_line_commit :
    due.portAxis 0 = some 0 ∧ (∃ d, due.lineDistance 0 0 = some d ∧ due.dueWithin 0 d ((due.prof 0).latW + 20) = true) ∧
    due.linePending 0 = true ∧ due.axisSettled 0 = true ∧ (due.port 0).tagsValid (due.prof 0) (due.port 0).nextLine = true ∧
    (due.port 0).pdp.asm.any (fun a => a.line = (due.port 0).nextLine) = true := by
  refine ⟨by decide, ⟨_, rfl, by decide⟩, by decide, by decide, by decide, by decide⟩
/-- `s` with port 0's profile changed. -/
def prof0 (f : Profile → Profile) (s : State) : State :=
  { s with top := { s.top with image := { s.top.image with profiles := s.top.image.profiles.map f } } }
/-- The margin after the line is unlimited, at STOP_TH, and below it. -/
theorem witness_margins :
    let after (s : State) := ({ (s.port 0).pdp with f := max (s.port 0).pdp.f (s.port 0).nextLine } : Pdp).margin (s.prof 0).sMax
    after due = some 0 ∧ (due.prof 0).stopTh = 0 ∧ after (port0 (fun q => { q with pdp := { q.pdp with endTag := some 0 } }) due) = none ∧
      0 < ((prof0 (fun r => { r with stopTh := 400 }) due).prof 0).stopTh ∧ (due.prof 0).scan = false ∧ (due.port 0).seam.state = 0 ∧
      (due.port 0).seam.late = false := by decide
theorem witness_width : ({} : Profile).stbMin ≤ ({} : Profile).stbMax := by decide

def committed : State :=
  port0 (fun q => { q with fire := { q.fire with committed := some { line := 0, tFire := 350, width := 20, late := false, fromGroup := 0 } } }) due
theorem witness_line_fire :
    committed.clocked = true ∧ (∃ x, (committed.port 0).fire.committed = some x ∧ x.fired = false ∧ (x.tFire - committed.times.fab).toInt ≤ 0 ∧
      x.counted < Committed.issued (committed.prof 0) committed.times.fab { x with fired := true }) ∧
    (committed.port 0).seam.state = 0 ∧ (committed.port 0).arm.dryrun = false ∧
    (port0 (fun q => { q with arm := { q.arm with dryrun := true } }) committed).port 0 ≠ committed.port 0 ∧
    ((port0 (fun q => { q with pdp := { q.pdp with endTag := some 0 } }) committed).port 0).pdp.lastLine (committed.prof 0) = some 0 :=
  ⟨by decide, ⟨_, rfl, by decide, by decide, by decide⟩, by decide, by decide, by decide, by decide⟩

/-- Line 0 may be assembled: its tag is valid. -/
def assembling : State := port0 (fun q => { q with pdp := { q.pdp with valid := [0] } }) armed
theorem witness_line_assemble :
    assembling.mayAssemble 0 0 = true ∧
    let q := { assembling.port 0 with pdp := (assembling.port 0).pdp.reachSet (assembling.prof 0) (assembling.port 0).sos.lines 0 }
    ∀ x ∈ q.readRanges (assembling.prof 0) 0, (assembling.mem.read 0 x.1 x.2).uncorrectable = [] := by decide
/-- `s` with channel 0 granted its engine. -/
def granting (s : State) : State :=
  { s with dma := { s.dma with engines := s.dma.engines.set 0 { granted := some 0, lastServed := 0 } } }
/-- The port wants tags again; channel 0, which feeds it and holds its engine, has its descriptor in the log or has not. -/
def wanting (tags : List Nat) (replay : Bool) (log : List Desc) : State :=
  granting (chan0 (fun k => { k with log := log })
    (port0 (fun q => { q with pdp := { q.pdp with wanted := tags, channel := some 0, replay := replay } }) { armed with host := { up.host with link := .l0 } }))
def lineDesc : Desc := ⟨0xC1, 1, 0, 0, 0, 0⟩
theorem witness_replay :
    (let s := wanting [0] false []
     s.clocked = true ∧ (s.port 0).arm.armed = true ∧ (s.port 0).pdp.replay = false ∧ (s.port 0).pdp.replayLost = false ∧ (s.port 0).pdp.wanted ≠ [] ∧
       (s.port 0).pdp.channel = some (0 : Fin 64).val ∧ (s.chan 0).bursts = [] ∧ s.granted 0 = true ∧ s.loggedFor 0 0 = none) ∧
    (wanting [0] false [lineDesc]).loggedFor 0 0 ≠ none ∧ (armed.port 0).pdp.wanted = [] ∧ (armed.port 0).seam.ue = false ∧
    (let s := wanting [0] true [lineDesc]
     (s.port 0).pdp.replay = true ∧ s.host.link = .l0 ∧ s.loggedFor 0 0 = some lineDesc ∧ lineDesc.fills = false ∧ lineDesc.srck = 0 ∧
       0 < (s.prof 0).lineBytes) ∧
    (wanting [0] true []).loggedFor 0 0 = none ∧ ((wanting [] true []).port 0).pdp.wanted = [] := by decide
theorem witness_page_dot : 1 ≤ ({} : Profile).redund ∧ (8 ≤ 8) ∧ ¬(8 ≤ 7) := by decide

theorem witness_port_registers :
    armed.clocked = true ∧ armed.hasPort 0 = true ∧ (armed.port 0).pdp.pend = none ∧ (armed.port 0).pdp.hmbusy = false ∧
    (armed.port 0).arm.armed = true ∧ (((armed.port 0).pdp.applytag.toNat : Int) ≤ (armed.port 0).pdp.assembled → False) ∧
    (armed.prof 0).scan = false ∧ (withImage.port 0).arm.armed = false ∧
    ((withImage.profile 0).isSome = true ∧ (withImage.prof 0).stopTh + 1 ≤ 1 ∧ 1 + 1 ≤ (withImage.prof 0).highMark) ∧
    ¬((withImage.prof 0).stopTh + 1 ≤ 0) := by decide

/-- An accepted head, a continuity test of one nozzle set up. -/
def testable : State :=
  port0 (fun q => { q with head := { q.head with accepted := true }, test := { q.test with op := 1, count := 2, rate := 1 } }) withImage
/-- A continuity test that has visited some nozzles, every pulse 1 µs wide, 100 µs of fabric time gone. -/
def pulsing (visited : Nat) : State :=
  let s := prof0 (fun r => { r with stbMin := 1000, stbMax := 1000 })
    (port0 (fun q => { q with test := { q.test with busy := true, visited := visited } }) testable)
  { s with times := { s.times with fab := 100000 } }
/-- One conversion inside the pulse fired at 90000 and one in the window before it. -/
def pulseSamples : List SenseSample := [⟨90100, 5⟩, ⟨88500, 5⟩]
theorem witness_pulse_judged :
    (let s := pulsing 0
     s.clocked = true ∧ (s.port 0).test.busy = true ∧ State.testOnTime (s.port 0).test 90000 = true ∧
       s.testHealthy 0 (s.testPulse 0 90000 pulseSamples) pulseSamples = some true ∧ (s.testByte 0 0).isNone = true ∧
       (s.port 0).test.visited + 1 ≠ (s.port 0).test.count ∧ (s.port 0).test.op = 1 ∧ s.flt.safe = false) ∧
    (let s := pulsing 1
     s.testHealthy 0 (s.testPulse 0 90000 pulseSamples) pulseSamples = some true ∧ (s.port 0).test.visited + 1 = (s.port 0).test.count ∧
       (s.readMap 0).corrected = [] ∧ (s.readMap 0).uncorrectable = []) ∧
    (let s := port0 (fun q => { q with test := { q.test with op := 2 } }) (pulsing 0)
     s.testHealthy 0 (s.testPulse 0 90000 pulseSamples) pulseSamples = some false ∧ s.testCode 0 0 ≠ 0) := by decide
def testing (visited : Nat) : State := port0 (fun q => { q with test := { q.test with busy := true, visited := visited } }) testable
theorem witness_health_test :
    testable.clocked = true ∧ testable.hasPort 0 = true ∧ testable.testAllowed 0 = true ∧ (armed.port 0).arm.armed = true ∧
    ((testing 0).port 0).test.busy = true ∧ ((testing 0).port 0).test.op = 1 ∧ ((testing 0).port 0).test.visited + 1 ≠ ((testing 0).port 0).test.count ∧
    ((testing 1).port 0).test.visited + 1 = ((testing 1).port 0).test.count ∧
    (0 ≤ ((testing 0).port 0).test.ctMax) ∧ ¬((70000 : Int) ≤ ((testing 0).port 0).test.ctMax) := by decide
theorem witness_watchdog_and_temperature :
    (let x : Committed := { line := 0, tFire := 350, width := 20, late := false, fromGroup := 0, fired := true }
     let s := port0 (fun q => { q with fire := { q.fire with committed := some x } }) { armed with times := { armed.times with fab := 1000 } }
     (s.profile 0).isSome = true ∧ (0 : Fin 4).val < (s.prof 0).strobes ∧ (s.prof 0).stbMax + 60 < 81 ∧ 80 ≤ (s.prof 0).stbMax + 60 ∧
       (s.port 0).roseAt (s.prof 0) s.times.fab (0 : Fin 4).val = some 350 ∧ 4 * 81 ≤ 5 * since s.times.fab 350 ∧
       (s.flt.reactOf 0x30).blkrst = false ∧ s.clocked = true ∧ s.senseFree 0 = true) ∧
    (let code (n : Nat) := armed.tsMean 0 (Vector.replicate 64 (BitVec.ofNat 12 n))
     16 ≤ code 16 ∧ code 4079 ≤ 4079 ∧ ¬16 ≤ code 15 ∧ ¬code 4080 ≤ 4079) := by decide
theorem witness_seam_pause :
    armed.clocked = true ∧ armed.hasPort 0 = true ∧ (armed.profile 0).isSome = true ∧ (armed.port 0).arm.armed = true ∧
    (armed.port 0).seam.state = 0 ∧ (armed.prof 0).scan = false := by decide

/-- A running seam slot on axis 0 in core 0, slot 0. -/
def seamed (phase : SeamPhase) : State :=
  slot0 (fun _ => { state := .running, cfg := { law := 1, flags := 4, inKind := 1, inIndex := 0 }, gen := { seam := phase } }) onAxis0
theorem witness_cap_change :
    let s := port0 (fun q => { q with fire := { q.fire with capSent := 50 } }) (seamed .none)
    s.clocked = true ∧ s.portAxis 0 = some 0 ∧ s.seamSlot 0 = some (0, 0) ∧ (s.port 0).fire.capSent ≠ s.cap 0 := by decide
/-- Port 0 meets every condition of arming. -/
def armable : State :=
  port0 (fun q => { q with head := { q.head with accepted := true }, temp := { q.temp with valid := true, tsgain := 1, shut := false }
                           sos := { q.sos with ofs := 1000 } }) onAxis0
theorem witness_arm :
    (up.clocked = true ∧ up.hasPort 0 = true ∧ (up.port 0).arm.armed = false ∧ up.top.activeValid = false) ∧
    (armed.port 0).arm.armed = true ∧
    (let s := port0 (fun q => { q with arm := { q.arm with disarming := true } }) armed
     (s.port 0).arm.armed = true ∧ (s.port 0).arm.disarming = true ∧ s.strobesOver 0 = true) ∧
    (let s : State := { withImage with top := { withImage.top with state := .activating } }
     s.top.activeValid = true ∧ s.profile 0 ≠ none ∧ s.top.state = .activating) ∧
    (let s := port0 (fun q => { q with fire := { q.fire with cut := 1 } }) withImage
     (s.port 0).fire.cut ≠ 0 ∧ s.flt.safe = false ∧ s.top.state = .idle) ∧
    (testing 0).flt.safe = false ∧ ((testing 0).port 0).test.busy = true ∧ withImage.armRefusal 0 false = some 0x05 ∧ armable.armRefusal 0 false = none := by decide

/-! ## Hypotheses met: supply, quiescence, ladder -/

theorem witness_supply :
    (up.supplyWatched = true ∧ up.sys.warn = false ∧ up.ladder.rung ≤ 1 ∧ 1 < (upAt 2).ladder.rung ∧ (upAt 4).supplyWatched = true) ∧
    (let s : State := { up with sys := { up.sys with warn := true, recover := true } }
     s.supplyWatched = true ∧ s.sys.warn = true ∧ s.sys.recover = true) ∧ up.mgmtServed = true ∧
    (armed.port 0).arm.armed = true ∧ (armed.profile 0).isSome = true := by decide
def exchanging (q : QuiescePurpose) (control data : QAnswer) (rung : Nat) : State :=
  { upAt rung with quiesce := { purpose := q, control := control, data := data } }
theorem witness_quiescence :
    (let s := delivered 5 0x30 7 (exchanging .descent .asked .asked 1)
     (s.arrived 5 0x30 (fun _ => true)).isSome = true ∧ s.clocked = true ∧ s.quiesce.control = .asked ∧ s.quiesce.data = .asked ∧
       (∀ c i, (s.slot c i).state ≠ .running) ∧ (∀ p, (s.port p).arm.armed = false ∧ (s.port p).test.busy = false) ∧ s.ladder.target < 5 ∧
       s.dataQuiet = true) ∧
    ((delivered 3 0x30 7 (exchanging .descent .asked .asked 1)).arrived 3 0x30 (fun _ => true)).isSome = true ∧
    ((port0 (fun q => { q with head := { q.head with usage := some ⟨3, 1, 0, true, 0⟩ } }) up).port 0).head.usage.isSome = true ∧
    ((seamed .none).slot 0 0).state = .running ∧ (armed.port 0).arm.armed = true ∧ armed.dataQuiet = false ∧
    ((delivered 4 0x31 7 (exchanging .descent .confirmed .confirmed 1)).arrived 4 0x31 (fun _ => true)).isSome = true ∧
    ((delivered 2 0x31 7 (exchanging .descent .confirmed .confirmed 1)).arrived 2 0x31 (fun _ => true)).isSome = true ∧
    ((delivered 4 0x32 7 (exchanging .descent .recorded (.refused 2) 1)).arrived 4 0x32 (fun _ => true)).isSome = true ∧
    ((delivered 2 0x32 7 (exchanging .activation (.refused 3) .asked 0)).arrived 2 0x32 (fun _ => true)).isSome = true ∧
    (exchanging .descent .recorded (.refused 2) 1).ladder.rung = 1 ∧ (up.arrived 3 0x30 fun _ => true) = none := by decide

/-- The part at a rung in a phase of the ladder. -/
def moving (rung target : Nat) (phase : LadderPhase) : State :=
  { up with ladder := { up.ladder with rung := rung, target := target, phase := phase } }
theorem witness_ladder_go :
    (∀ r : Fin 7, (upAt r.val).running = true ∧ (upAt r.val).ladder.rung ≤ 6 ∧ (upAt r.val).ladder.phase = .idle) ∧
    (moving 0 1 .descend).ladder.phase ≠ .idle := by decide
/-- A descent at L1 that both planes have confirmed. -/
def ready (target : Nat) : State := { moving 1 target .descend with quiesce := { purpose := .descent, control := .recorded, data := .recorded } }
theorem witness_rung_entry :
    (∀ r : Fin 7, (moving r.val 7 .descend).running = true ∧ (moving r.val 7 .descend).ladder.phase = .descend ∧
      (moving r.val 7 .descend).ladder.rung < (moving r.val 7 .descend).ladder.target) ∧
    (moving 1 7 .descend).mayIdle = false ∧ (ready 2).mayIdle = true ∧ (ready 2).dmaQuiet = true ∧
    (chan0 (fun k => { k with state := .running }) (ready 2)).dmaQuiet = false ∧
    (chan0 (fun k => { k with state := .running }) (ready 2)).mayIdle = true ∧ (moving 2 3 .descend).linkReady = true ∧
    ({ moving 2 3 .descend with host := { up.host with link := .l0 } } : State).linkReady = false := by decide
theorem witness_wake :
    ((upAt 4).running = true ∧ WakeSource.pin ≠ .sprig 0 default ∧
      (upAt 4).ladder.wakeActs .pin = true ∧ (upAt 4).ladder.wakeEnabled .pin = true ∧ (upAt 1).ladder.wakeActs .i2c = false) ∧
    (moving 3 3 (.exit 4)).ladder.phase = .exit 4 ∧ (moving 3 3 (.exit 4)).ladder.wakeActs .pin = true ∧
    (let s : State := { upAt 3 with host := { up.host with link := .l1 } }
     s.running = true ∧ s.host.link ≠ .down ∧ s.ladder.phase = .idle ∧ s.ladder.wakeEn.getLsbD 2 = true) ∧
    (let s : State := { up with ladder := { up.ladder with rung := 4, aonTimer := 1, wakeEn := 0x7F } }
     s.running = true ∧ s.ladder.aonTimer ≠ 0 ∧ s.ladder.wakeEn.getLsbD 4 = true) ∧
    (let s : State := { moving 2 3 .descend with host := { up.host with link := .l0 } }
     s.linkWait = true ∧ s.quiesce.purpose ≠ .activation) := by decide
theorem witness_wake_sprig :
    let s := sprig0 (fun g => { g with wake := true, mode := 9, tin := 1 }) (upAt 2)
    s.ladder.wakeActs (.sprig 0 default) = true ∧ s.ladder.wakeEnabled (.sprig 0 default) = true ∧ s.wakeSprig 0 default = false := by decide
theorem witness_exit_steps :
    ((moving 3 0 (.exit 4)).running = true ∧ (moving 3 0 (.exit 4)).sys.fastLost = false ∧ (moving 3 0 (.exit 4)).referencePresent = true) ∧
    ({ moving 3 0 (.exit 4) with sys := { up.sys with fastLost := true } } : State).sys.fastLost = true ∧
    ({ moving 3 0 (.exit 4) with sys := { up.sys with ref := .pcie } } : State).referencePresent = false ∧
    (moving 2 0 (.exit 5)).ladder.phase = .exit 5 ∧ (moving 1 0 (.exit 6)).host.i2cHold = .none ∧
    (∀ clk, clk = WatchedClock.reference ∨ clk = .pll ∨ clk = .mgmtRc → up.watched clk = true) ∧
    ({ upAt 5 with sys := { up.sys with x32ok := true } } : State).watched .x32 = true ∧ up.sys.phase ≠ .inReset := by
  refine ⟨by decide, by decide, by decide, by decide, by decide, ?_, by decide, by decide⟩
  intro clk h
  rcases h with h | h | h <;> subst h <;> decide

/-! ## Hypotheses met: sprigs -/

/-- A single PWM sprig with a shadow that passes R82. -/
def pwmSprig : State := sprig0 (fun g => { g with mode := 1, shadow := #v[10, 20, 8, 0] }) up
theorem witness_sprig_commits :
    (pwmSprig.clocked = true ∧ pwmSprig.hasSprig 0 = true ∧ (pwmSprig.sprig 0).gang = 0 ∧ pwmSprig.commitOk 0 = true ∧
      inputOnly (pwmSprig.sprig 0).mode = false) ∧
    (sprig0 (fun g => { g with shadow := #v[10, 19, 8, 0] }) pwmSprig).commitOk 0 = false ∧
    inputOnly 6 = true ∧ (up.sprig 0).mode = 0 ∧
    (({ pwmSprig with fab := { pwmSprig.fab with gcmask := #v[1, 0, 0] } } : State).fab.gcmask[0]).getLsbD 0 = true := by decide
theorem witness_sprig_boundary :
    (let s := { sprig0 (fun g => { g with pend := some { regs := #v[10, 20, 8, 0] } }) pwmSprig with times := { up.times with fab := 1 } }
     s.clocked = true ∧ s.outputsHeld = false ∧ (s.sprig 0).gang = 0 ∧ (s.sprig 0).mode ≠ 0 ∧ (s.sprig 0).mode ≠ 2 ∧ (s.sprig 0).mode ≠ 3 ∧
       (s.sprig 0).loopOwned = false ∧ (s.sprig 0).slotOut = none ∧ (s.sprig 0).atBoundary s.times.fab = true ∧
       (s.sprig 0).pend.any (fun p => p.cycle != s.times.fab) = true) ∧
    (let g : Sprig := { mode := 1, active := true, pwm := { len := 80 } }
     g.atBoundary 79 = false ∧ g.atBoundary 80 = true) ∧
    (let p : PendSet := { regs := #v[77, 1, 0, 0] }
     let s := { sprig0 (fun g => { g with mode := 3, p0 := 2, pend := some p }) up with times := { up.times with fab := 1 } }
     s.clocked = true ∧ (s.sprig 0).gang = 0 ∧ (s.sprig 0).mode = 3 ∧ (s.sprig 0).loopOwned = false ∧ (s.sprig 0).slotOut = none ∧
       (s.sprig 0).pend = some p ∧ p.idle = false ∧ p.cycle ≠ s.times.fab ∧ s.outputsHeld = false ∧ (s.sprig 0).p0 = (2 : Fin 8).val ∧
       (p.regs[1]).getLsbD 0 = true) := by decide
theorem witness_pwm_dead_time :
    let w : Pwm := {}
    (10 ≤ 80) ∧ w.edges = [] ∧ w.len = 0 ∧ ¬(w.highAtStart = true ∧ w.lowAtStart = true) := by decide
theorem witness_sprig_actions :
    (let s := sprig0 (fun g => { g with mode := 1, active := true, act := #v[10, 20, 8, 0] }) up
     s.clocked = true ∧ (s.sprig 0).mode = 1 ∧ (s.sprig 0).gang = 0 ∧ (s.sprig 0).active = true ∧ (s.sprig 0).holdLvl = false ∧
       (s.sprig 0).pend = none ∧ (s.sprig 0).slotOut = none ∧ (s.sprig 0).atBoundary s.times.fab = true) ∧
    (∀ limit : Fin 3, let s := sprig0 (fun g => { g with
          mode := 4, active := true, p1 := 1, act := #v[0, BitVec.ofNat 32 limit.val, 0, 0]
          step := { phase := 3200000000, rate := 16, dir := true, remain := limit.val } }) { up with times := { up.times with fab := 1000000 } }
     s.clocked = true ∧ s.outputsHeld = false ∧ (s.sprig 0).stepDue s.times.fab = true) ∧ (up.sprig 0).stepDue up.times.fab = false ∧
    (let s := sprig0 (fun g => { g with mode := 5, active := true, peak := { phase := 1, peakSamples := 4 }, act := #v[1, 0, 0, 0], p0 := 100, p2 := 64 })
        { up with top := { up.top with image := { domains := 0x40 } }, cal := { up.cal with started := true, samples := 1 } }
     s.sampleFresh 0 = true ∧ (s.sprig 0).gang = 0 ∧ (s.sprig 0).peak.phase = 1 ∧ ((s.sprig 0).act[0]).getLsbD 0 = true ∧
       s.adcCode (s.sprig 0).adc = (0 : BitVec 16).toNat ∧ s.adcCode (s.sprig 0).adc < (s.sprig 0).p0 ∧ 5 * (s.sprig 0).p2 ≤ 64 * ((s.sprig 0).peak.peakSamples + 1) ∧
       64 * (3 + 1) < 5 * (s.sprig 0).p2) ∧ up.sampleFresh 0 = false ∧
    (let s := { sprig0 (fun g => { g with mode := 8, act := #v[1, 0, 0, 0], tach := { count := 2, first := 1, last := some 5 } }) up with
                times := { up.times with fab := 800 } }
     s.clocked = true ∧ s.swapHold = false ∧ (s.sprig 0).mode = 8 ∧ (s.sprig 0).pend = none ∧ (s.sprig 0).gateOver s.times.fab = true ∧
       (s.sprig 0).gateOver 799 = false ∧ (s.sprig 0).tach.last = some 5 ∧ since 5 (s.sprig 0).tach.first ≠ 0) := by decide
theorem witness_input_edges :
    (let routes : List RouteRec := [⟨0, 0, false, 5, false, false, false, false⟩, ⟨0, 1, false, 6, false, false, false, false⟩]
     let at' (mode : Nat) : State := { sprig0 (fun g => { g with mode := mode, act := #v[1, 0, 0, 0] }) up with
                                         top := { up.top with image := { routes := routes } }, times := { up.times with fab := 58 } }
     let moves (a b : Bool) : List PinChange := ([(0, some a), (1, some b)] : List (Fin 4 × Option Bool)).map fun c => ⟨c.1, c.2, 50⟩
     let level (mode : Nat) (a b : Bool) := ((at' mode).senseInputs 0 (moves a b)).filteredLevels 0
     (at' 3).clocked = true ∧ (at' 3).swapHold = false ∧ ((at' 3).sprig 0).tin = 0 ∧ level 3 true true = 3 ∧ level 3 true false = 1 ∧
       level 3 false true = 2 ∧ level 3 false false = 0 ∧ level 6 true false = ((at' 6).sprig 0).tin ^^^ (1#4 <<< 0) ∧
       bitsOf (((at' 6).sprig 0).act[0]).toNat (2 * 0 + 0) 1 = 1 ∧ (((at' 6).sprig 0).cap.queues[0]).length < 4 ∧ level 9 true true ≠ 0 ∧
       (at' 3).inputRoute 0 (0 : Fin 4).val = some ⟨0, 0, false, 5, false, false, false, false⟩ ∧
       since 58 (50 : Time48) = 8 ∧ since 57 (50 : Time48) < 8) ∧
    4 ≤ (List.replicate 4 (⟨0, true, false⟩ : CapEntry)).length := by decide
theorem witness_measurement_reads :
    up.clocked = true ∧ up.hasSprig 95 = true ∧ up.hasCore 3 = true ∧
    (∀ m ∈ [3, 5, 6, 7, 10], (sprig0 (fun g => { g with mode := m }) up).hasSprig 0 = true) ∧
    (let r := up.mem.read 1 (4 * (up.core 0).capAddr) 4
     r.corrected = [] ∧ r.uncorrectable = []) ∧ (up.slot 0 0).state = .free ∧ ((seamed .none).slot 0 0).state ≠ .free ∧
    ((seamed .none).slot 0 0).mig.discards < 65536 ∧ ((seamed .none).slot 0 0).mig.reason < 256 ∧ ((seamed .none).slot 0 0).kLatest < 2 ^ 48 := by
  decide

/-! ## Hypotheses met: loop slots and seams -/

/-- Slot 0 of core 0 with a PIDF law, in a state. -/
def pidf (state : SlotState) (f : Slot → Slot) : State := slot0 (fun _ => f { state := state, cfg := { law := 1, rate := 1000 } }) up
theorem witness_slot_samples :
    (let s := pidf .running id
     s.clocked = true ∧ (s.slot 0 0).state = .running ∧ s.tickDue 0 0 = true) ∧
    reached (((pidf .running fun x => { x with tau0 := 1 }).slot 0 0).tickAt 0) up.loopNow = false := by decide
def aJob : Job :=
  { k := 0, tOut := 0, input := 0, raw := none, aux := none, angle := none, outer := none, measP := none, measV := 0, genVel := 0, genAcc := 0
    hold := false, first := true, testOn := false, testFirst := false, view := {}, cmd := none, par := {}, coef := {} }
theorem witness_sample_job :
    let s : State := (pidf .running fun x => { x with jobs := [aJob] }).onCore 0 fun k => { k with running := some 0 }
    s.clocked = true ∧ (s.core 0).running = some (0 : Fin 24).val ∧ (s.slot 0 0).jobs.find? (fun k => !k.ran) = some aJob ∧
      (s.slot 0 0).mig.pend = false := by decide
theorem witness_output_tick :
    (∀ complete stale : Bool,
      let o : Out := { k := 0, tOut := 0, epoch := 0, value := .duty 5, u := 5, complete := complete, stale := stale }
      let s := pidf .running fun x => { x with outs := [o], cfg := { x.cfg with outKind := 1 } }
      s.clocked = true ∧ (s.slot 0 0).outs = [o] ∧ reached o.tOut s.loopNow = true ∧ (s.slot 0 0).parking = false ∧ (s.core 0).capRun = 0 ∧
        s.outputsHeld = false ∧ (s.slot 0 0).cfg.outIndex = (0 : Fin 96).val ∧ (s.sprig 0).mode ≠ 4) ∧
    (let s := pidf .parked fun x => { x with outs := [{ k := 0, tOut := 0, epoch := 0, value := .duty 5, u := 5, complete := true }], parking := true }
     (s.slot 0 0).parking = true ∧ (s.core 0).capRun = 0) ∧
    (let s := { pidf .running id with flt := { up.flt with safe := true } }
     s.outputsHeld = true) ∧
    (∀ o ∈ ((pidf .running id).slot 0 0).outs, reached o.tOut (pidf .running id).loopNow = false) ∧ reached 1 (0 : Time48) = false := by decide
theorem witness_pidf_bounded :
    (({} : SlotRec).kind = .pidf) ∧ ({} : Slot).supplyff = false ∧ aJob.coef.outMin < aJob.coef.outMax ∧ 0 ≤ aJob.coef.iLim ∧
    ({ uPrev := 1073741823 } : Slot).uPrev = aJob.coef.outMax ∧ ({ uPrev := -1073741824 } : Slot).uPrev = aJob.coef.outMin := by decide
/-- Slot 0 in a chain whose outer slot is slot 1. -/
def chained : State := (pidf .parked id).onSlot 0 1 fun _ => { state := .parked, cfg := { law := 3, next := 0 } }
theorem witness_slot_modes :
    (∀ state ∈ [SlotState.parked, .running, .holding],
      (pidf state id).clocked = true ∧ (pidf state id).hasCore 0 = true ∧ ((pidf state id).slot 0 0).state = state ∧
        (pidf state id).outerOf 0 0 = none ∧ ((pidf state id).slot 0 0).parking = false ∧ ((pidf state id).slot 0 0).cfg.law ≠ 3 ∧
        (pidf state id).seamArmed ((pidf state id).slot 0 0) = false ∧ ((pidf state id).slot 0 0).outs = []) ∧
    (up.slot 0 0).state = .free ∧ (chained.outerOf 0 0).isSome = true ∧ up.flt.safe = false ∧ up.top.state ≠ .activating ∧
    (let s : State := { pidf .parked id with top := { state := .activating } }
     s.clocked = true ∧ s.hasCore 0 = true ∧ (s.slot 0 0).state = .parked ∧ s.top.state = .activating) ∧
    (let s := slot0 (fun _ => { state := .running, cfg := { flags := 4, inKind := 1 } }) armed
     s.seamArmed (s.slot 0 0) = true) ∧
    ((pidf .running fun x => { x with cfg := { x.cfg with law := 4 } }).slot 0 0).cfg.law = 4 := by decide
theorem witness_slot_commands :
    (let s := pidf .running id
     s.clocked = true ∧ s.hasCore 0 = true ∧ (s.slot 0 0).state ≠ .free ∧ (s.slot 0 0).coefShadow.outMin < (s.slot 0 0).coefShadow.outMax ∧
       0 ≤ (s.slot 0 0).coefShadow.iLim ∧ (s.slot 0 0).cfg.hasGen = false ∧ (s.slot 0 0).ts.order ≤ 15 ∧
       s.coreLoad 0 + 24 * (s.slot 0 0).cfg.rate ≤ 320000000 ∧ s.seamArmed (s.slot 0 0) = false) ∧
    (let x := (pidf .running fun x => { x with ts := { x.ts with active := true, len := 1, n := 1 } }).slot 0 0
     x.ts.active = true ∧ x.ts.len ≠ 0 ∧ x.ts.len ≤ x.ts.n) ∧
    (let x := (pidf .running fun x => { x with ts := { x.ts with active := true, len := 2, n := 1 } }).slot 0 0
     x.ts.active = true ∧ x.ts.n < x.ts.len) ∧
    (let x := (seamed .none).slot 0 0
     x.cfg.hasGen = true ∧ x.velmode = false ∧ x.gen.seam = .none ∧ ¬x.cfg.vmax < x.gen.regVel.natAbs) ∧
    ((seamed .creep).slot 0 0).gen.seam ≠ .none := by decide
theorem witness_migration :
    (let s := pidf .running fun x => { x with mig := { x.mig with dcore := 1, dslot := 2 } }
     s.clocked = true ∧ s.hasCore 0 = true ∧ (s.slot 0 0).state = .running ∧ (s.slot 0 0).cfg.law ≠ 3 ∧ (1 : Fin 4) ≠ 0 ∧ s.hasCore 1 = true ∧
       (s.slot 0 0).mig.dcore = (1 : Fin 4).val ∧ (s.slot 0 0).mig.dslot = (2 : Fin 24).val ∧ (s.slot 1 2).state = .free ∧
       (s.slot 1 2).mig.fromSlot = none ∧ s.coreLoad 1 + 64 * 1000 ≤ 320000000 ∧ (s.slot 0 0).kNext ≤ (s.slot 0 0).mig.h ∧
       (s.slot 0 0).gen.seam = .none) ∧
    (let s := pidf .running fun x => { x with mig := { x.mig with toCore := 1, toSlot := 2, pend := true } }
     (s.slot 0 0).mig.pend = true ∧ (s.slot 0 0).mig.toCore = (1 : Fin 4).val ∧ (s.slot 0 0).mig.toSlot = (2 : Fin 24).val ∧
       reached (s.slot 0 0).mig.reach s.loopNow = true ∧ (s.slot 0 0).mig.toH ≤ (s.slot 0 0).kNext ∧
       ∀ j ∈ (s.slot 0 0).jobs, (s.slot 0 0).mig.toH ≤ j.k) := by decide

/-- The seam slot in a phase at rest, port 0 in a seam that holds the axis at line 7. -/
def holding (phase : SeamPhase) (state : Nat) : State :=
  port0 (fun q => { q with seam := { q.seam with axisHolds := true, axisLine := 7, line := 7, state := state, resumed := true } }) (seamed phase)
/-- With a seam message of port 0 delivered, for stop line 7. -/
def told (d : Fin 6) (type : BitVec 8) (cancel : Bool) (s : State) : State := delivered d type (seamPayload 7 0 cancel 5) s
theorem witness_seam_handshake :
    (∀ phase ∈ [SeamPhase.none, .creep, .stopping, .backing, .held, .running],
      let s := holding phase 1
      s.clocked = true ∧ s.portAxis 0 = some 0 ∧ s.seamSlot 0 = some (0, 0) ∧ s.scanAxis 0 = false ∧ (s.slot 0 0).gen.seam = phase ∧
        (s.slot 0 0).gen.atRest = true ∧ (s.slot 0 0).gen.replan = false ∧ s.holders 0 = [0] ∧ s.flt.safe = false) ∧
    (let tagged (s : State) (control : Bool) (type : BitVec 8) := (s.seamMessage control type 0 fun y => seamTag y == 7).isSome
     tagged (told 1 0x10 false (seamed .none)) true 0x10 = true ∧ tagged (told 1 0x12 true (holding .held 3)) true 0x12 = true ∧
       tagged (told 0 0x11 false (holding .held 2)) false 0x11 = true ∧ tagged (told 0 0x13 false (holding .held 3)) false 0x13 = true ∧
       tagged (holding .held 3) true 0x10 = false ∧ tagged (holding .held 3) false 0x11 = false) ∧
    seamFpos (seamPayload 7 0 true 5) = 5 ∧ seamCancel (seamPayload 7 0 true 5) = true ∧ seamCancel (seamPayload 7 0 false 5) = false ∧
    (holding .held 2).axisRests 0 = false ∧ ((holding .held 2).port 0).seam.tag = 7 ∧ ((holding .held 2).port 0).seam.tag ≠ 8 ∧
    ((holding .held 3).port 0).seam.axisRuns = false ∧ ((seamed .none).port 0).seam.axisHolds = false ∧ (seamed .stopping).holders 0 = [] ∧
    ((holding .held 3).port 0).seam.state = 3 ∧ ((holding .held 3).port 0).seam.resumed = true ∧
    ((holding .held 3).port 0).seam.blocked = false := by decide
/-- A run-up at print speed. -/
theorem witness_seam_handback :
    let s := (holding .running 4).onSlot 0 0 fun x => { x with gen := { x.gen with v := x.gen.printSpeed x.cfg ((holding .running 4).axisView x) } }
    (s.slot 0 0).gen.seam = .running ∧ (s.slot 0 0).gen.replan = false ∧ (s.slot 0 0).gen.a = 0 ∧
      (s.slot 0 0).gen.v = s.forwardSign 0 * (s.slot 0 0).gen.printSpeed (s.slot 0 0).cfg (s.axisView (s.slot 0 0)) := by decide

/-! ## Hypotheses met: heads -/

def headed (f : Head → Head) : State := port0 (fun q => { q with head := f q.head }) withImage
theorem witness_head_acceptance :
    ((headed id).clocked = true ∧ ((headed id).profile 0).isSome = true ∧ ((headed id).port 0).head.detect = true ∧
      ((headed id).port 0).head.present = false ∧ (up.flt.reactOf 0x37).blkrst = false) ∧
    (acknowledged [.nak, .nak, .nak, .ack] = true ∧ acknowledged [.nak, .nak, .nak, .nak] = false ∧ acknowledged [.stuck] = false) ∧
    (let h := ((headed fun h => { h with present := true, misses := 2, abusy := true }).port 0).head
     h.present = true ∧ 2 ≤ h.misses ∧ h.abusy = true ∧ h.ready = false ∧ h.keyStore = none ∧ h.identified = false) ∧
    (let h := ((headed fun h => { h with
          abusy := true, identified := true, pollsLeft := 1, keyStore := some 5, hformat := 1, nozzles := 8 }).port 0).head
     h.abusy = true ∧ h.identified = true ∧ h.pollsLeft ≠ 0 ∧ h.keyStore = some 5 ∧ h.hformat = 1 ∧ h.nozzles.toNat = ((headed id).prof 0).nozzles) ∧
    (let h := ((headed fun h => { h with abusy := true, identified := true, pollsLeft := 0, ready := false }).port 0).head
     h.ready = false ∧ h.pollsLeft = 0) ∧ ((headed fun h => { h with detect := false }).port 0).head.detect = false := by decide
def someOp : UsageOp := ⟨3, 1, 0, true, 0⟩
theorem witness_head_commands :
    ((headed id).clocked = true ∧ (headed id).hasPort 0 = true ∧ ((headed id).port 0).head.accepted = false) ∧
    (let q := (headed fun h => { h with present := true, accepted := true, keyStore := some 5 }).port 0
     q.arm.armed = false ∧ q.head.abusy = false ∧ q.head.usage = none ∧ q.head.present = true ∧ q.head.accepted = true ∧ q.head.opened = false ∧
       q.head.keyStore = some 5 ∧ q.head.sbBusy = false ∧ ¬(q.head.sbWrite = true)) ∧
    (let h := ((headed fun h => { h with usage := some someOp, keyStore := some 5 }).port 0).head
     h.usage.isSome = true ∧ h.usagePend = none) ∧
    (let h := ((headed fun h => { h with usage := some someOp, usagePend := some 1, keyStore := some 5 }).port 0).head
     h.usage.isSome = true ∧ h.usagePend = some 1) ∧
    (let h := ((headed fun h => { h with sbBusy := true, sbRun := (false, 3) }).port 0).head
     h.sbBusy = true ∧ h.sbRun.1 = false ∧ h.sbRun.2 < 4) ∧
    (let h := ((headed fun h => { h with sbWrite := true, sbAddr := 0x1F, sbLen := 1 }).port 0).head
     h.sbWrite = true ∧ h.sbAddr ≤ 0xFF ∧ 0x20 ≤ h.sbAddr + h.sbLen) := by decide

/-! ## Hypotheses met: DMA, loader -/

/-- Channel 0 running with one COPY descriptor of 16 bytes from host memory to host memory waiting at DTAIL 0. -/
def copyDesc : Desc := { ctrl := 1, length := 16, src := 0, dst := 64, tag := 0, user := 0 }
def fetching (ctrl : List Byte) : State :=
  { chan0 (fun k => { k with state := .running, dsize := 4, dhead := 1, rsize := 4 }) up with
    host := { up.host with link := .l0 }
    dma := { (chan0 (fun k => { k with state := .running, dsize := 4, dhead := 1, rsize := 4 }) up).dma with
             hostMem := hostWrite [] 0 (ctrl ++ [16, 0, 0, 0]) } }
theorem witness_dma_descriptors :
    (let s := fetching [1, 0, 0, 0]
     let k := s.chan 0
     let d := Desc.ofBytes (hostBytes s.dma.hostMem (k.dbase.toNat + 32 * k.dtail) 32)
     s.clocked = true ∧ s.hasChan 0 = true ∧ k.state = .running ∧ k.cur = none ∧ k.dtail ≠ k.dhead ∧ k.owed = [] ∧ k.loc = false ∧
       s.sys.variant.pcie = true ∧ s.host.link = .l0 ∧ s.descInvalid 0 d = false ∧ d.isPrint = false ∧ s.replayOf 0 = none ∧
       (s.flt.reactOf 0x20).blkrst = false) ∧
    (let s := fetching [0, 0, 0, 0]
     s.descInvalid 0 (Desc.ofBytes (hostBytes s.dma.hostMem 0 32)) = true) ∧
    (up.chan 0).state ≠ .running ∧ (up.chan 0).state ≠ .stopping := by decide
theorem witness_print_descriptor :
    let s := chan0 (fun k => { k with state := .running, dsize := 4, dhead := 1, rsize := 4, loc := true })
      { armed with mem := armed.mem.writeBytes 6 0 ([0xC1, 0, 0, 0, 1, 0, 0, 0] ++ List.replicate 24 0) }
    let d := Desc.ofBytes (s.mem.read 6 0 32).bytes
    (s.mem.read 6 0 32).corrected = [] ∧ (s.mem.read 6 0 32).uncorrectable = [] ∧ d.isPrint = true ∧ (s.chan 0).loc = true := by decide
def bursting (d : Desc) (bursts : List Nat) (owed : List Owed) : State :=
  { chan0 (fun k => { k with state := .running, dsize := 4, dhead := 1, cur := some d, bursts := bursts, owed := owed }) up with
    host := { up.host with link := .l0 } }
/-- The conditions of a time-out: of a fetch, and of the last burst of a COMPARE with mismatches. -/
theorem witness_dma_timeout :
    (let k := (fetching [1, 0, 0, 0]).chan 0
     k.loc = false ∧ (fetching [1, 0, 0, 0]).replayOf 0 = none ∧ ∀ o ∈ k.owed, o.ended = true) ∧
    (let d : Desc := { copyDesc with ctrl := 3 }
     let s := chan0 (fun k => { k with mismatches := 1 }) (bursting d [16] [{ desc := d, index := 0, ended := false }])
     (s.chan 0).cur = some d ∧ (s.chan 0).bursts = [16] ∧ (s.chan 0).fail = 0 ∧ d.readsHost = true ∧ d.isPrint = false ∧ d.compares = true ∧
       s.replayOf 0 = none ∧ ∃ o ∈ (s.chan 0).owed, o.ended = false) := by decide
def owedRecord : Owed := { desc := copyDesc, index := 0, complete := true }
theorem witness_completion_post :
    (let k := (chan0 (fun k => { k with owed := [owedRecord], rsize := 4 }) up).chan 0
     k.owed = [owedRecord] ∧ owedRecord.complete = true ∧ k.room = true) ∧
    (let k := (chan0 (fun k => { k with owed := [owedRecord], rsize := 4, rtail := 1 }) up).chan 0
     k.room = false ∧ k.fullRaised = false) := by decide
theorem witness_dma_bursts :
    (up.clocked = true ∧ up.hasEngine (0 : Fin 4).val = true ∧ (up.engine 0).granted = none ∧ ∀ i, up.requests (State.chanOf 0 i) = false) ∧
    (let s := bursting copyDesc [] []
     s.requests (State.chanOf 0 0) = true ∧ s.mayBurst 0 copyDesc = true ∧ s.grantOver (State.chanOf 0 0) = false) ∧
    (let k := (bursting copyDesc [16] [{ desc := copyDesc, index := 0, ended := false }]).chan 0
     copyDesc.isPrint = false ∧ copyDesc.compares = false ∧ copyDesc.srck = 0 ∧ copyDesc.dstk = 0 ∧ k.done + 16 = copyDesc.length ∧
       k.written = k.done ∧ k.owed.filter (fun x => !x.ended) = [{ desc := copyDesc, index := 0, ended := false }] ∧ k.fail = 0 ∧
       copyDesc.readsHost = true) ∧
    ((bursting copyDesc [8] []).chan 0).done + 8 < copyDesc.length ∧
    (let d : Desc := { copyDesc with ctrl := 3 }
     d.isPrint = false ∧ d.compares = true ∧ d.srck = 0 ∧ d.dstk = 0) ∧
    (let d : Desc := { copyDesc with ctrl := 0xC1 }
     d.isPrint = true ∧ ((bursting d [8, 8] []).port d.portOf).pdp.channel ≠ some (0 : Fin 64).val) := by decide
def loading (f : Top → Top) : State := { up with top := f up.top }
theorem witness_loader :
    (up.mgmtServed = true ∧ up.top.slotSel = false ∧ up.top.state = .idle ∧ up.running = true ∧ up.mayActivate = false ∧
      (up.mem.read 7 (4 * up.top.waddr) 4).corrected = [] ∧ (up.mem.read 7 (4 * up.top.waddr) 4).uncorrectable = []) ∧
    (loading fun x => { x with slotSel := true }).top.slotSel = true ∧ (loading fun x => { x with state := .clearing }).top.state = .clearing ∧
    (let s := loading fun x => { x with stagedValid := true }
     s.top.stagedValid = true ∧ s.top.state = .idle ∧ s.ladder.rung ≤ 1 ∧ s.ladder.phase = .idle ∧
       ∀ c, (s.chan c).state ≠ .running ∧ (s.chan c).state ≠ .stopping) := by decide
theorem witness_validation :
    ((upAt 4).running = true ∧ (upAt 4).top.state = .idle ∧ 4 ≤ (upAt 4).ladder.rung) ∧
    (let s := loading fun x => { x with state := .validating }
     s.mgmtServed = true ∧ s.top.state = .validating ∧ s.top.actAfterVal = false) := by decide
theorem witness_activation_swap :
    (let s : State := { loading (fun x => { x with state := .activating, prepared := some {} }) with
                        quiesce := { purpose := .activation, control := .recorded, data := .recorded } }
     s.running = true ∧ s.top.state = .activating ∧ s.top.prepared = some {} ∧ s.quiesce.purpose = .activation ∧
       s.quiesce.control = .recorded ∧ s.quiesce.data = .recorded) ∧ up.quiesce.control ≠ .recorded := by decide

/-! ## Hypotheses met: Tohevik -/

def nodeRec : NodeRec := ⟨0, 0, 1, 0, 0, 0, 0⟩
/-- Tohevik port 0 with one node record. -/
def chained1 (f : Tlk → Tlk) : State := tlk0 f { up with top := { up.top with image := { nodes := [nodeRec] } } }
def node0 (f : TNode → TNode) (k : Tlk) : Tlk := { k with nodes := upd k.nodes 0 f }
/-- Port 0 running with its first node configured and the frame of an upstream slot on its way. -/
def fed (frame : BitVec 192) : State :=
  chained1 fun k => node0 (fun a => { a with configured := true, fbSeq := some 15 }) { k with state := .running, up := [⟨0, frame, false⟩] }
theorem witness_tohevik_traffic :
    ((15 : Nat) < 16 ∧ (255 : Nat) < 256) ∧
    (let s := fed (mkFrame 0 0 0x81 0)
     s.clocked = true ∧ s.hasTlk 0 = true ∧ (s.tlk 0).inj.active = false ∧ (s.tlk 0).state ≠ .unused ∧ (s.tlk 0).state ≠ .suspended ∧
       (s.chain 0)[(0 : Fin 8).val]? = some nodeRec ∧ (s.tnode 0 0).configured = true ∧ (s.tnode 0 0).fbSeq = some 15 ∧
       (s.tnode 0 0).sendSafe = false ∧ (s.tnode 0 0).restoring = false ∧ (s.tlk 0).inj.on 1 (0 : Fin 8).val = false) ∧
    (up.tlk 0).state = .unused ∧ (up.flt.reactOf 0x53).blkrst = false ∧ up.receiveUp 0 0 0 = none := by decide
/-- What comes in at the Plenu of a frame sent: as it is with no line bit inverted, a code or CRC error with one. -/
theorem witness_frames_received :
    let came (f : BitVec 192) (flips : BitVec 240) : Option Frame := ((fed f).receiveUp 0 0 flips).map (·.1)
    came (mkFrame 0 0 0x81 0) 0 = some ⟨mkFrame 0 0 0x81 0, true⟩ ∧ (came (mkFrame 0 0 0x81 0) 1).map frameOk = some false ∧
    frameOk ⟨mkFrame 0 0 0x81 0, true⟩ = true ∧ frameType (mkFrame 0 0 0x81 0) = 0x81 ∧ frameAddr (mkFrame 0 0 0x81 0) = 0 ∧
    (mkFrame 0 0 0x81 0).getLsbD 104 = false ∧ frameType (mkFrame 0 0 0x91 0) ≠ 0x81 ∧ frameAddr (mkFrame 1 0 0x81 0) ≠ 0 ∧
    (let passed (q : Nat) := (frameSeq (mkFrame 0 q 0x81 0) + 16 - 15) % 16
     passed 0 = 1 ∧ passed 7 = 8 ∧ passed 15 = 0 ∧ passed 8 = 9) := by decide
theorem witness_node_loss :
    let s := chained1 fun k => node0 (fun a => { a with configured := true, missing := 2, validCyc := 16 }) { k with state := .running }
    let later : State := { s with times := { s.times with passed := 3088 } }
    later.clocked = true ∧ later.hasTlk 0 = true ∧ (later.tlk 0).state = .running ∧ 2 ≤ (later.tnode 0 0).missing ∧
      (later.tnode 0 0).configured = true ∧ (later.tnode 0 0).lost = false ∧ later.slotMissed 0 0 = true ∧ s.slotMissed 0 0 = false ∧
      16 ≤ (s.tnode 0 0).validCyc ∧ s.targetsParked 0 0 = true := by decide
/-- The port in a training step, a frame of slot 0 on its way, one node on its chain or two. -/
def training (step : TrainStep) (cycles : Nat) (two : Bool) (frame : BitVec 192) : State :=
  tlk0 (fun k => { k with state := .training, step := step, stepCycles := cycles, up := [⟨0, frame, false⟩] })
    { up with top := { up.top with image := { nodes := if two then [nodeRec, { nodeRec with position := 1 }] else [nodeRec] } } }
/-- The CONFIG_ACK of the record, with its byte 6. -/
def ackOf (status : Nat) : BitVec 192 := mkFrame 0 0 0x92 ((nodeRec.config true).setWidth 160 ||| (BitVec.ofNat 160 status <<< 48))
theorem witness_tohevik_training :
    (let s := chained1 id
     s.clocked = true ∧ s.hasTlk 0 = true ∧ (s.tlk 0).state ≠ .training ∧ s.chain 0 ≠ [] ∧ up.chain 0 = [] ∧ s.injectionOk 0 = false) ∧
    (let s := training .config 16 false (ackOf 0)
     (s.tlk 0).state = .training ∧ (s.tlk 0).step = .config ∧ (s.tlk 0).resetCycles = 0 ∧ 16 ≤ (s.tlk 0).stepCycles ∧
       (s.tnode 0 0).lost = false ∧ (s.tnode 0 0).configured = false ∧ (s.chain 0)[(0 : Fin 8).val]? = some nodeRec) ∧
    (let s := training (.address 0) 15 true (mkFrame 0 0 0x91 0)
     (s.tlk 0).step = .address (0 : Fin 8).val ∧ (0 : Fin 8).val + 1 < (s.chain 0).length ∧ (s.tlk 0).stepCycles < 16) ∧
    ((0 : Fin 8).val + 1 = ((training (.address 0) 15 false 0).chain 0).length) ∧
    ((training (.address 1) 0 true 0).tlk 0).step ≠ .address (0 : Fin 8).val ∧
    (permitted.mayInject = true ∧ (permitted.tlk 0).inj.kind ≠ 2 ∧ permitted.flt.safe = false ∧ permitted.mgmtServed = true) := by decide
theorem witness_training_frames :
    let came (f : BitVec 192) : Option Frame := ((training .config 0 false f).receiveUp 0 0 0).map (·.1)
    came (mkFrame 0 0 0x91 0) = some ⟨mkFrame 0 0 0x91 0, true⟩ ∧ frameOk ⟨mkFrame 0 0 0x91 0, true⟩ = true ∧
    frameType (mkFrame 0 0 0x91 0) = 0x91 ∧
    (∀ status : Fin 3, came (ackOf status.val) = some ⟨ackOf status.val, true⟩ ∧ frameOk ⟨ackOf status.val, true⟩ = true ∧
      frameType (ackOf status.val) = 0x92 ∧ (ackOf status.val).extractLsb' 16 48 = nodeRec.config true ∧
      payloadByte (ackOf status.val) 6 = status.val) := by decide
/-- A node at place 0 with address 0, reached by a cycle whose every slot holds the frame, 54 µs after its last keepalive. -/
def hearing (frame : BitVec 192) (f : Node → Node) : State :=
  let s := tlk0 (fun k => { k with sent := List.replicate 8 frame }) up
  { s.onNode 0 0 (fun d => f { d with address := some 0, reached := true, localSafe := false }) with times := { s.times with passed := 10800 } }
theorem witness_node :
    (∀ x ∈ [(0x01, 0), (0x01, 1), (0x01, 7), (0x01, 8), (0x12, 0), (0x13, 0), (0x14, 0)],
      let f := mkFrame 0 x.2 x.1 0
      (hearing f id).heard 0 0 0 = some ⟨f, true⟩ ∧ frameOk ⟨f, true⟩ = true ∧ ((hearing f id).node 0 0).address = some (frameAddr f) ∧
        frameType f = x.1 ∧ (frameSeq f + 16 - ((hearing f id).node 0 0).lastSeq % 16) % 16 = x.2) ∧
    ((hearing safeFrameBits id).heard 0 0 0 = some ⟨safeFrameBits, true⟩ ∧ frameOk ⟨safeFrameBits, true⟩ = true ∧
      frameType safeFrameBits = 0x1F ∧ frameAddr safeFrameBits = 0xF) ∧
    ((hearing 0 id).heard 0 0 0).map frameOk = some false ∧
    ((hearing (mkFrame 1 1 0x01 0) id).heard 0 0 0).map (fun f => frameAddr f.bits) = some 1 ∧ up.heard 0 0 0 = none ∧
    (up.node 0 0).reached = false := by decide
theorem witness_node_events :
    (let s := hearing 0 id
     (s.node 0 0).suspended = false ∧ (s.node 0 0).heardAt + 10800 ≤ s.times.passed) ∧
    (let s := hearing 0 fun d => { d with heardAt := 1 }
     s.times.passed < (s.node 0 0).heardAt + 10800) ∧
    (let s := hearing 0 fun d => { d with originating := false }
     missesUp 0 s.nodes[0] = true ∧ missesUp 0 (hearing 0 id).nodes[0] = false ∧
       originator (s.onNode 0 0 fun d => { d with originating := true }).nodes[0] = some 0) ∧
    ((hearing (mkFrame 15 0 0x10 0) id).tlk 0).slotArriving 0 0 = some ⟨mkFrame 15 0 0x10 0, true⟩ ∧
    frameOk ⟨mkFrame 15 0 0x10 0, true⟩ = true ∧ frameType (mkFrame 15 0 0x10 0) = 0x10 ∧ frameAddr (mkFrame 15 0 0x10 0) = 0xF ∧
    ((hearing (mkFrame 14 0 0x11 3) id).tlk 0).addressArriving 0 = some ⟨mkFrame 14 0 0x11 3, true⟩ ∧
    frameOk ⟨mkFrame 14 0 0x11 3, true⟩ = true ∧ frameType (mkFrame 14 0 0x11 3) = 0x11 ∧ frameAddr (mkFrame 14 0 0x11 3) = 0xE ∧
    (up.node 0 0).address = none ∧ ∀ j, j < (0 : Fin 8) → (up.node 0 j).address ≠ none := by decide

/-! ## Hypotheses met: OTP, memories, thermal, calibration -/

/-- Everything R332 asks for, PUNLOCK written, bit 3 of word 40 named. -/
def programmable : State :=
  { up with otp := { up.otp with punlock := 0x50524F47, progWord := 40, progBit := 3, progSrc := true }, thm := { up.thm with otpok := true } }
theorem witness_otp_program :
    up.mgmtServed = true ∧ up.otp.op = none ∧ up.otp.punlock ≠ 0x50524F47 ∧
    (let o := programmable.otp
     let lock := (otpRegion (otpRegionOf o.progWord)).lockWord
     o.op = none ∧ o.punlock = 0x50524F47 ∧ ¬((43 ≤ o.progWord ∧ o.progWord ≤ 45) ∨ (48 ≤ o.progWord ∧ o.progWord ≤ 63)) ∧ o.progWord ≠ lock ∧
       o.progWord ≠ 42 ∧ (o.word lock).tight.getLsbD 0 = false ∧ (o.word o.progWord).tight.getLsbD o.progBit = false) ∧
    programmable.thm.otpok = true ∧ 3000 ≤ programmable.env.vin ∧ programmable.env.vin ≤ 5500 ∧ programmable.sys.warn = false := by decide
theorem witness_otp_pulse :
    (40 < 128 ∧ 3 < 32) ∧ ({ up with otp := { up.otp with op := some ⟨40, 3, false, 2⟩ } } : State).otp.op = some ⟨40, 3, false, 2⟩ := by decide
def bankOn : State := { up with mem := { up.mem with banks := Vector.replicate 16 .on } }
/-- A scrub of the line store's first words, one of which has an upset byte. -/
def scrubbing (back : Option (Nat × Nat × List Byte)) : State :=
  { bankOn with mem := { bankOn.mem with lineStore := { upsets := [(3, 4)], written := [0] }
                                         scrub := { busy := true, active := true, limit := 64, back } } }
theorem witness_memories :
    (bankOn.mem.wf = true ∧ bankOn.mem.reachable 0 5 = true ∧ up.mem.reachable 0 5 = false ∧ (0, 6) ≠ (0, 5)) ∧
    (bankOn.mem.remapped 0 0 = none ∧ bankOn.mem.remap.length < 16) ∧
    (let m : MemSys := { bankOn.mem with remap := (List.range 16).map fun k => { memsel := 0, offset := 8 * k, data := 0 } }
     m.remapped 0 256 = none ∧ 16 ≤ m.remap.length) ∧
    (up.mgmtServed = true ∧ up.mem.scrub.busy = false ∧ memSize up.sys.variant 0 ≠ 0 ∧ memSize up.sys.variant 9 = 0 ∧ up.mem.scrub.addr + up.mem.scrub.len ≤ 1) ∧
    bankOn.mem.banks[(3 : Fin 16).val] = .on ∧ up.mem.banks[(3 : Fin 16).val] ≠ .on := by decide
theorem witness_scrub_cycle :
    (let s := scrubbing none
     s.mem.scrub.active = true ∧ s.memClocked 0 = true ∧ s.mem.scrub.back = none ∧ s.mem.scrub.halt = false ∧ s.mem.scrub.next < s.mem.scrub.limit ∧
       s.mem.scrubHolds = false ∧ (s.mem.read 0 0 8).corrected ≠ [] ∧ (s.mem.read 0 0 8).uncorrectable = [] ∧ (s.mem.read 0 8 8).corrected = []) ∧
    (let s := scrubbing (some (0, 0, List.replicate 8 1))
     s.mem.wf = true ∧ s.mem.scrub.back = some (0, 0, List.replicate 8 1) ∧ s.mem.reachable 0 0 = true ∧ s.env.weak.contains (0, 0) = false) := by decide
/-- A scrub of a memory as `f` has it, with a message to its controller or from it. -/
def scrubAs (f : Scrub → Scrub) : State :=
  { bankOn with mem := { bankOn.mem with lineStore := { written := [0] }, scrub := f {} } }
def tasked (c : MemCommand) (f : Scrub → Scrub) : State :=
  dir0 5 (fun l => { l with accepted := [linkMessage 0x28 0 0], tasks := [(0, c)] }) (scrubAs f)
def resulted (c : MemResult) (f : Scrub → Scrub) : State :=
  dir0 4 (fun l => { l with accepted := [linkMessage 0x29 0 0], results := [(0, c)] }) (scrubAs f)
theorem witness_memory_messages :
    (remoteMem 0 = true ∧ remoteMem 5 = false ∧ up.nextTask 5 0 = none ∧ up.nextResult 4 0 = none) ∧
    ((tasked (.scrub 0 64) fun x => { x with busy := true }).nextTask 5 0 = some (linkMessage 0x28 0 0, .scrub 0 64)) ∧
    (let s := tasked .scrubAbort fun x => { x with active := true }
     s.nextTask 5 0 = some (linkMessage 0x28 0 0, .scrubAbort) ∧ s.mem.scrub.active = true ∧ s.mem.scrub.run.memsel = 0) ∧
    (tasked (.remap 8) id).nextTask 5 0 = some (linkMessage 0x28 0 0, .remap 8) ∧
    (let s := tasked (.testRegion 0) id
     s.nextTask 5 0 = some (linkMessage 0x28 0 0, .testRegion 0) ∧ s.mem.isWritten 0 0 = true ∧ s.mem.tt.under = none) ∧
    (resulted (.scrubbed {}) fun x => { x with busy := true }).nextResult 4 0 = some (linkMessage 0x29 0 0, .scrubbed {}) ∧
    (resulted (.tested none) id).nextResult 4 0 = some (linkMessage 0x29 0 0, .tested none) ∧
    (resulted (.tested (some 8)) id).nextResult 4 0 = some (linkMessage 0x29 0 0, .tested (some 8)) := by decide
theorem witness_scrub_and_test :
    (let x := (scrubAs fun x => { x with busy := true, result := some {} }).mem.scrub
     x.active = false ∧ x.busy = true ∧ x.result = some {} ∧ x.abort = false) ∧
    (let x : Scrub := { busy := true, active := true, run := { memsel := 5 } }
     x.active = true ∧ remoteMem x.run.memsel = false ∧ up.mem.tt.under = none) ∧
    (let s : State := { up with mem := { up.mem with tt := { up.mem.tt with en := true, mask := 0x20 }, keepMgmt := { written := [0] } } }
     s.mayTest = true ∧ s.mem.chooseRegion = some ((5, 0), false) ∧ (Instr.ttRegion [3]).wellFormed = true) ∧
    (let s : State := { bankOn with mem := { bankOn.mem with tt := { up.mem.tt with en := true, mask := 1 }, lineStore := { written := [0] } } }
     s.mayTest = true ∧ s.mem.chooseRegion = some ((0, 0), false)) ∧ up.mayTest = false := by decide
/-- A zone on its sensor, the others on the model. -/
def sensed : State := { up with thm := { up.thm with zones := up.thm.zones.set 0 { up.thm.zones[0] with onModel := false } } }
def checking : State := { sensed with thm := { sensed.thm with check := some { zone := 0, left := 4, d := 65536, ok := true }, force := 2 } }
theorem witness_thermal :
    up.mgmtClocked = true ∧ (upAt 4).mgmtClocked = false ∧ (∀ z : Fin 6, up.inCheck z.val = false) ∧
    (sensed.mgmtClocked = true ∧ sensed.thm.spareBad = false ∧ sensed.thm.check = none ∧ sensed.thm.checkNext = (0 : Fin 6).val ∧
      sensed.thm.zones[(0 : Fin 6).val].onModel = false) ∧ (∀ z : Fin 6, up.thm.zones[z.val].onModel = true) ∧
    (checking.inCheck 0 = true ∧ checking.inCheck 1 = false ∧ checking.thm.force.getLsbD 1 = true) ∧
    0 < ((#v[1, 0, 0, 0, 0, 0] : Vector Nat 6).toList.foldl (· + ·) 0) ∧ up.mgmtServed = true ∧ up.setsInForce = [] := by decide
/-- The ADC domain on, its calibration as `f` has it. -/
def calibrating (f : Cal → Cal) : State := { up with top := { up.top with image := { domains := 0x7F } }, cal := f up.cal }
theorem witness_calibration :
    (let s := calibrating fun k => { k with started := true }
     s.adcReady = true ∧ s.cal.en = true ∧ s.cal.channel = none ∧ s.cal.period ≠ 0) ∧
    (calibrating fun k => { k with en := false }).cal.en = false ∧ up.adcReady = false ∧ up.adcRuns = false ∧
    (let s := calibrating fun k => { k with channel := some 16 }
     s.adcRuns = true ∧ s.cal.channel = some (16 : Fin 17).val ∧ s.cal.started = false) ∧
    up.mgmtServed = true ∧ up.cal.setAddr = (0 : Fin 8).val ∧ up.cal.wordAddr = (0 : Fin 8).val ∧
    (let gain := (divNearest (32768 * (1200000 + up.cal.vrefd) * 65535) (1800000 * (44000 - 100))).toNat
     29491 ≤ gain ∧ gain ≤ 36045) := by decide

/-! ## Hypotheses met: reset, host -/

theorem witness_chip_reset :
    (up.ladder.rung ≠ 7 ∧ (upAt 7).ladder.rung = 7 ∧ ((upAt 7).ladder.phase = .idle) ∧ anyCause { pin := true } = true ∧ anyCause {} = false ∧ up.sys.resetOwed = none ∧ up.otp.op = none ∧ up.mgmtServed = true) ∧
    ({ up with sys := { up.sys with resetOwed := some 5 } } : State).sys.resetOwed = some 5 ∧ up.sys.phase ≠ .inReset ∧ up.ladder.rung ≤ 4 ∧
    ({ up with host := { up.host with link := .l0 } } : State).host.link ≠ .down ∧ State.reset.sys.phase = .inReset ∧ up.running = true := by decide
theorem witness_links_and_tap :
    (let s : State := { up with env := { up.env with refck := true } }
     s.running = true ∧ s.sys.variant.pcie = true ∧ s.sys.fallback = false ∧ s.ladder.rung ≤ 2 ∧ s.env.refck = true) ∧
    ({ up with sys := { up.sys with fallback := true } } : State).sys.fallback = true ∧ up.sys.jtagtm = false ∧ up.debugOff = false ∧
    ({ up with sys := { up.sys with jtagtm := true } } : State).sys.jtagtm = true := by decide
def linked (rung : Nat) : State := { upAt rung with host := { up.host with link := .l0 } }
theorem witness_register_space :
    ((linked 0).running = true ∧ (linked 0).hasPcie = true ∧ (linked 0).host.link = .l0 ∧ (linked 0).host.held = [] ∧ (linked 0).clocked = true ∧
      (linked 2).clocked = false ∧ 3 % 4 + 1 ≤ 4 ∧ 1 % 4 + [(7 : Byte)].length < 4) ∧
    (∀ n : Fin 4, (linked 0).hasPort n = true) ∧ (0x300000 + 0x1000 * (linked 0).sys.variant.tlks ≤ 0x308000) ∧
    (let s : State := { linked 0 with sys := { up.sys with variant := .p224 } }
     0x100000 + 0x100 * s.sys.variant.sprigs ≤ 0x105FFC ∧ 0x700000 + 0x4000 * s.sys.variant.ports ≤ 0x70FFFC) := by decide
theorem witness_pcie_requests :
    ((linked 3).running = true ∧ (linked 3).hasPcie = true ∧ (linked 3).host.link = .l0 ∧ (linked 3).ladder.rung = 3 ∧
      (linked 3).ladder.phase ≠ .descend ∧ (linked 3).ladder.wakeEn.getLsbD 2 = true ∧ (linked 3).ladder.phase = .idle) ∧
    (Instr.registerWrite .pcie 0x58 (.write [0])).wellFormed = true ∧ (Instr.hostWindowAccess .pcie 0x7FFFFF (.read 1)).wellFormed = true ∧
    (let s := { linked 0 with host := { (linked 0).host with held := [.read 0 4] } }
     s.host.held ≠ [] ∧ s.host.link = .l0 ∧ s.ladder.rung = 0) ∧
    (linked 0).host.held = [] ∧ (linked 0).clocked = true ∧ 0x7FFFFF / 0x80000 < (linked 0).sys.variant.banks ∧
    ¬0x400000 / 0x80000 < Variant.banks .p224 := by decide
theorem witness_spi_and_i2c :
    (up.running = true ∧ up.ladder.rung ≤ 2 ∧ (0xFFFFFC#32).toNat < 0x1000000 ∧ 0x1000000 < (0xFFFFFC#32).toNat + 8 ∧ (2#32).toNat % 4 ≠ 0) ∧
    (3 ≤ (upAt 3).ladder.rung ∧ up.sys.phase ≠ .inReset ∧ up.host.i2cHold = .none) ∧
    ((upAt 4).running = true ∧ (upAt 4).ladder.phase = .idle ∧ (upAt 4).ladder.wakeEn.getLsbD 1 = true ∧ 0x34 ≤ (0x34#24).toNat) ∧
    ({ upAt 4 with ladder := { up.ladder with rung := 4, wakeEn := 0x61 } } : State).ladder.wakeEn.getLsbD 1 = false ∧ (upAt 7).ladder.rung = 7 ∧
    ({ up with host := { up.host with i2cHold := .read 0 4 } } : State).host.i2cHold ≠ .none := by decide
theorem witness_sound : State.reset.memoryWf = true ∧ State.reset.wakeWired = true ∧ State.reset.mem.remap.length ≤ 16 ∧
    (State.reset.flt.records.filter fun r => !r.reserved).length ≤ 32 := by decide

/-! ## The worked examples of the spec -/

/-- The ticket printer of 05_print_data_path.md. -/
def ticket : Profile :=
  { mode := 4, lanes := 8, nozzles := 9600, shiftLen := 2400, fireMax := 24000, linePitch := 64, rows := 4, redund := 2
    stagger := [0, 48, 96, 144, 0, 0, 0, 0], lsFirst := 0, lsBanks := 12, backup := 760, stopTh := 400, resumeTh := 700, highMark := 1200 }
def ticketSeam : SlotRec := { flags := 4, amax := 960000, jmax := 750000 }
theorem test_ticket_printer :
    ticket.npr = 2400 ∧ ticket.groups = 2 ∧ ticket.bits = 2 ∧ ticket.sMax = 144 ∧ ticket.lineBytes = 2400 ∧ nDec ticket ticketSeam = 360 ∧
    nBack ticket = 760 ∧ windowLines ticket ticketSeam = 1266 ∧ ticket.ring = 2594 ∧ aheadLines ticket ticketSeam = 1328 ∧
    ({ ticket with lsBanks := 8 } : Profile).ring = 1720 := by decide
/-- The three-phase motor of 03_pleach_and_sprigs.md: the U phase's edges in steps, and a W pulse too short to be made. -/
theorem test_conveyor_period :
    (({ lowAtStart := true } : Pwm).begin 0 40000 12000 200 80 true).edges.map (fun e => (e.step, e.high, e.level)) =
      [(14000, false, false), (14200, true, true), (26000, true, false), (26200, false, true)] := by decide
theorem test_conveyor_short_pulse :
    ((({ lowAtStart := true } : Pwm).begin 0 40000 200 200 80 true).edges.filter (·.high)) = [] := by decide
/-- The gate-lock solenoid's sprig record and route. -/
theorem test_solenoid_record :
    parseSprig [0x0C, 0x05, 0x00, 0x03, 0x8D, 0xE3, 0, 0, 0x1C, 0x47, 0, 0, 0xE0, 0x2E, 0, 0] 0 =
      ⟨12, 5, false, false, 3, 58253, 18204, 12000⟩ ∧
    parseRoute [0x0C, 0x81, 0x29, 0x00] 0 = ⟨12, 1, true, 41, false, false, false, false⟩ := by decide
/-- The factory sets of 12_thermal_and_calibration.md. -/
def factorySets : List CalSet :=
  [⟨-40, -620, [0, 0, 45210, 0, 0, 0, 0]⟩, ⟨25, 35, [0, 0, 38960, 0, 0, 0, 0]⟩, ⟨105, -1480, [0, 0, 31280, 0, 0, 0, 0]⟩]
theorem test_vrefd_and_gain :
    interpolateVrefd (47 * 65536) factorySets = -382 ∧
    (divNearest (32768 * (1200000 - 382) * 65535) (1800000 * (43920 - 310))).toNat = 0x8032 := by decide
theorem test_sensor_reading : (sensorReading factorySets 2 36000).map sixteenths = some 0x037D := by decide
/-- The loops of 08_loop_cores.md on core 3 after the conveyor's move. -/
theorem test_core_load :
    let a := LawKind.heater.cost * 10 * 2 + LawKind.pressure.cost * 500 + LawKind.piDq.cost * 20000
    a = 2753600 := by decide
/-- R30's example: of an 8-byte write at 0x12 only the word at 0x14 is written; here with MGT_AONTIMER's word beside others. -/
theorem test_pieces_of_a_write :
    ∃ t, exec (.registerWrite .pcie 0x2E (.write [1, 2, 0x78, 0x56, 0x34, 0x12, 3, 4])) { up with host := { up.host with link := .l0 } } = .next t ∧
      t.ladder.aonTimer = 0x12345678 ∧ t.ladder.wakeEn = up.ladder.wakeEn := ⟨_, rfl, by decide, by decide⟩
/-- The night's descent of 11_power_ladder_and_clocks.md: MGT_LADDER = 0x8000_0006 at L0. -/
theorem test_ladder_go_to_l6 :
    ∃ t, exec (.ladderGo 6) up = .next t ∧ t.ladder.phase = .descend ∧ t.ladder.target = 6 := ⟨_, rfl, by decide, by decide⟩
/-- 14_otp.md: word 41 bit 0 is LOCK of the key region. -/
theorem test_key_region_lock : (otpRegion (otpRegionOf 40)).lockWord = 41 := by decide
/-- 13_faults_and_recovery.md: END is refused at 117 °C with the shutdown level in force. -/
theorem test_end_refused_while_hot :
    ∃ t, exec .fltSafeEnd { up with flt := { up.flt with safe := true }, thm := { up.thm with shut := true } } = .next t ∧
      t.flt.cerr = true ∧ t.flt.safe = true := ⟨_, rfl, by decide, by decide⟩
/-- R349: IDCODE 0x21A4_0B4B shifts out bit 0 first. -/
theorem test_idcode : ∃ t, exec .idcode up = .next t ∧ t.host.tapOut.take 8 = [true, true, false, true, false, false, true, false] :=
  ⟨_, rfl, by decide⟩

end Sys2Proof.Tests
end

/-!
PROOF. The family of 00_scope.md: the PCIe link's events (R278, R339), the test access port's instructions (R349) and the chip reset that
leaving a test mode is (R346).
-/

namespace Sys2Proof.Machine

namespace State

/-! ## What every chip reset leaves -/

/-- A command's chip reset is one chip reset: an owed reaction adds the cause Fault and its source, and never the cause Power. -/
theorem resetFor_eq_chipReset (c : ResetCauses) (s : State) :
    ∃ d source, d.power = c.power ∧ s.resetFor c = s.chipReset d source := by
  unfold resetFor
  split
  · next source _ => exact ⟨{ c with fault := true }, source, rfl, rfl⟩
  · exact ⟨c, 0, rfl, rfl⟩

theorem dropOtp_host (s : State) : s.dropOtp.host = s.host := by
  unfold dropOtp
  split <;> rfl

theorem chipReset_ladder_rung (c : ResetCauses) (source : Nat) (s : State) : (s.chipReset c source).ladder.rung = 0 := by
  cases h : c.power <;> simp only [chipReset, h] <;> rfl

theorem chipReset_top (c : ResetCauses) (source : Nat) (s : State) : (s.chipReset c source).top = State.reset.top := by
  cases h : c.power <;> simp only [chipReset, h] <;> rfl

/-- Of the host side a reset whose cause is not Power keeps the test access port. -/
theorem chipReset_host {c : ResetCauses} (source : Nat) (s : State) (h : c.power = false) :
    (s.chipReset c source).host = s.host.survive := by
  simp [chipReset, h, survivors, dropOtp_host]

@[simp] theorem resetFor_phase (c : ResetCauses) (s : State) : (s.resetFor c).sys.phase = .inReset := by
  obtain ⟨d, source, -, e⟩ := s.resetFor_eq_chipReset c
  rw [e]
  rfl

@[simp] theorem resetFor_jtagtm (c : ResetCauses) (s : State) : (s.resetFor c).sys.jtagtm = false := by
  obtain ⟨d, source, -, e⟩ := s.resetFor_eq_chipReset c
  rw [e]
  rfl

@[simp] theorem resetFor_ladder_rung (c : ResetCauses) (s : State) : (s.resetFor c).ladder.rung = 0 := by
  obtain ⟨d, source, -, e⟩ := s.resetFor_eq_chipReset c
  rw [e, chipReset_ladder_rung]

@[simp] theorem resetFor_activeValid (c : ResetCauses) (s : State) : (s.resetFor c).top.activeValid = false := by
  obtain ⟨d, source, -, e⟩ := s.resetFor_eq_chipReset c
  rw [e, chipReset_top]
  rfl

theorem resetFor_host {c : ResetCauses} (s : State) (h : c.power = false) : (s.resetFor c).host = s.host.survive := by
  obtain ⟨d, source, hd, e⟩ := s.resetFor_eq_chipReset c
  rw [e, chipReset_host source s (hd.trans h)]

@[simp] theorem resetFor_boundary {c : ResetCauses} (s : State) (h : c.power = false) :
    (s.resetFor c).host.boundary = s.host.boundary := by
  rw [resetFor_host s h]
  rfl

/-! ## The regime of a test mode (R298, R299) -/

/-- In a test mode the regime is test, or recovery, which comes before it. -/
theorem regime_of_jtagtm {s : State} (h : s.sys.jtagtm = true) : s.regime = if s.thm.recovery then 3 else 2 := by
  simp [regime, h]

/-- A change to a regime other than normal ends the warning and throttle levels of the normal regime, and no other. -/
theorem changeRegime_thm_of_ne_normal {f : State → State} {s : State} (h : (f s).regime ≠ 1) :
    (s.changeRegime f).thm = if s.regime = 1 then (f s).thm.leaveNormal else (f s).thm := by
  simp [changeRegime, h]

/-! ## The test access port -/

theorem idcodeBits_length : idcodeBits.length = 32 := by simp [idcodeBits]

theorem idcodeBits_get (k : Fin 32) : idcodeBits[k.val]? = some ((0x21A40B4B : Word).getLsbD k.val) := by
  simp [idcodeBits, k.isLt]

/-- Outside a test mode an instruction that is no test one changes the port alone. -/
theorem tapLoad_outside_test {s : State} (i : TapInstr) (out : List Bool) (h : s.sys.jtagtm = false) :
    s.tapLoad i out = { s with host := { s.host with tap := i, tapReset := false, tapOut := out } } := by
  simp [tapLoad, h, onHost]

/-- In a test mode the same instruction comes after a chip reset. -/
theorem tapLoad_in_test {s : State} (i : TapInstr) (out : List Bool) (h : s.sys.jtagtm = true) :
    s.tapLoad i out = (s.resetFor {}).onHost fun x => { x with tap := i, tapReset := false, tapOut := out } := by
  simp [tapLoad, h]

/-- Everything a test instruction does: JTAGTM, the port, and the warning and throttle levels where it ends the normal regime. -/
theorem tapTest_eq (i : TapInstr) (out : List Bool) (s : State) :
    s.tapTest i out = { s with
      sys := { s.sys with jtagtm := true }
      thm := if s.regime = 1 then s.thm.leaveNormal else s.thm
      host := { s.host with tap := i, tapReset := false, tapOut := out } } := by
  have hne : (s.onSys fun y => { y with jtagtm := true }).regime ≠ 1 := by
    rw [regime_of_jtagtm rfl]
    split <;> decide
  have hthm := changeRegime_thm_of_ne_normal (f := fun t => t.onSys fun y => { y with jtagtm := true }) hne
  simp only [onSys_thm] at hthm
  rw [← hthm]
  rfl

theorem tapTest_regime (i : TapInstr) (out : List Bool) {s : State} (h : s.thm.recovery = false) : (s.tapTest i out).regime = 2 := by
  have hrec : (s.tapTest i out).thm.recovery = false := by
    rw [tapTest_eq]
    dsimp only
    split <;> exact h
  rw [regime_of_jtagtm (by rw [tapTest_eq]), hrec]
  rfl

/-- A test instruction that ends the normal regime ends its warning and throttle levels. -/
theorem tapTest_ends_levels (i : TapInstr) (out : List Bool) {s : State} (h : s.regime = 1) :
    (s.tapTest i out).thm.warn = false ∧ (s.tapTest i out).thm.throt = false := by
  simp [tapTest_eq, h, Thm.leaveNormal]

/-- The frame of a test instruction. -/
theorem tapTest_frame (i : TapInstr) (out : List Bool) (s : State) :
    s.tapTest i out = { s with
      sys := (s.tapTest i out).sys
      host := (s.tapTest i out).host
      thm := { s.thm with warn := (s.tapTest i out).thm.warn, throt := (s.tapTest i out).thm.throt } } := by
  rw [tapTest_eq]
  split <;> rfl

end State

/-! ## The commands -/

theorem pcieLinkUp_trains {s : State} (hrun : s.running = true) (hpcie : s.sys.variant.pcie = true) (hfb : s.sys.fallback = false)
    (hrung : s.ladder.rung ≤ 2) (href : s.env.refck = true) :
    completes .pcieLinkUp s fun t => t = { s with host := { s.host with link := .l0 } } := by
  rw [completes_next rfl]
  simp [hrun, State.hasPcie, hpcie, hfb, hrung, href, State.onHost]

/-- A part without an endpoint, or fallen back to the variant that has none, trains no link (R7, R336). -/
theorem pcieLinkUp_without_endpoint {s : State} (h : s.sys.variant.pcie = false ∨ s.sys.fallback = true) :
    completes .pcieLinkUp s (· = s) := by
  rw [completes_next rfl]
  have hno : s.hasPcie = false := by rcases h with h | h <;> simp [State.hasPcie, h]
  simp [hno]

theorem pcieLinkPowerState_moves_link (state : LinkPower) {s : State} (hrun : s.running = true) (hlink : s.host.link ≠ .down) :
    completes (.pcieLinkPowerState state) s fun t =>
      t = { s with host := { s.host with link := match state with
        | .l1 => .l1
        | .l23 => .l23 } } := by
  rw [completes_next rfl]
  cases state <;> simp [hrun, hlink, State.onHost]

section OutsideTest

variable {s : State} (h : s.sys.jtagtm = false)
include h

theorem bypass_outside_test :
    completes .bypass s fun t => t = { s with host := { s.host with tap := .bypass, tapReset := false, tapOut := [false] } } := by
  rw [completes_next rfl, State.tapLoad_outside_test _ _ h]

theorem idcode_outside_test :
    completes .idcode s fun t => t = { s with host := { s.host with tap := .idcode, tapReset := false, tapOut := t.host.tapOut } } ∧
      t.host.tapOut.length = 32 ∧ ∀ k : Fin 32, t.host.tapOut[k.val]? = some ((0x21A40B4B : Word).getLsbD k.val) := by
  rw [completes_next rfl, State.tapLoad_outside_test _ _ h]
  exact ⟨rfl, State.idcodeBits_length, State.idcodeBits_get⟩

theorem samplePreload_outside_test (bits : List Bool) :
    completes (.samplePreload bits) s fun t => t.host.boundary = bits ∧ t.host.tap = .samplePreload ∧
      t = { s with free := s.free + 1, host := { s.host with tap := .samplePreload, tapReset := false, tapOut := t.host.tapOut, boundary := bits } } := by
  rw [completes_next rfl, State.tapLoad_outside_test _ _ h]
  exact ⟨rfl, rfl, rfl⟩

theorem jtagTestExit_outside_test : completes .jtagTestExit s (· = s) := by
  rw [completes_next rfl]
  simp [h]

theorem trstNLow_outside_test :
    completes .trstNLow s fun t => t = { s with host := { s.host with tap := .idcode, tapReset := true, tapOut := [] } } := by
  rw [completes_next rfl]
  simp [h, State.onHost]

end OutsideTest

theorem extest_sets_test_mode (s : State) :
    completes .extest s fun t => t.sys = { s.sys with jtagtm := true } ∧ t.host.tap = .extest ∧ (s.thm.recovery = false → t.regime = 2) ∧
      (s.regime = 1 → t.thm.warn = false ∧ t.thm.throt = false) ∧
      t = { s with sys := t.sys, host := t.host, free := s.free + 1, thm := { s.thm with warn := t.thm.warn, throt := t.thm.throt } } := by
  rw [completes_next rfl]
  let out := Config.sampledPins s.free
  refine ⟨?sys, ?tap, State.tapTest_regime .extest out, State.tapTest_ends_levels .extest out, ?frame⟩
  case sys => simp [State.tapTest_eq]
  case tap => simp [State.tapTest_eq]
  case frame => exact congrArg State.bumpFree (State.tapTest_frame .extest out s)

theorem debugTestInstruction_sets_test_mode {s : State} (h : s.debugOff = false) :
    completes .debugTestInstruction s fun t => t.sys = { s.sys with jtagtm := true } ∧ (s.thm.recovery = false → t.regime = 2) ∧
      t = { s with sys := t.sys, host := t.host, thm := { s.thm with warn := t.thm.warn, throt := t.thm.throt } } := by
  rw [completes_next rfl, h]
  exact ⟨by simp [State.tapTest_eq], State.tapTest_regime _ _, State.tapTest_frame _ _ s⟩

/-- With DEBUG_OFF in force a test instruction is BYPASS (R327, R349). -/
theorem debugTestInstruction_is_bypass {s : State} (h : s.debugOff = true) : exec .debugTestInstruction s = exec .bypass s := by
  change execDebugTestInstruction s = execBypass s
  simp [execDebugTestInstruction, execBypass, h]

/-- Every command that leaves a test mode is a chip reset, which the boundary register outlives. -/
theorem leaving_test_mode_resets {i : Instr} {s : State} (hi : i = .bypass ∨ i = .idcode ∨ i = .jtagTestExit ∨ i = .trstNLow)
    (h : s.sys.jtagtm = true) :
    completes i s fun t => t.sys.phase = .inReset ∧ t.sys.jtagtm = false ∧ t.ladder.rung = 0 ∧ t.top.activeValid = false ∧
      t.host.tap = (if i = .bypass then .bypass else .idcode) ∧ t.host.boundary = s.host.boundary := by
  rcases hi with rfl | rfl | rfl | rfl
  case inl | inr.inl =>
    rw [completes_next rfl, State.tapLoad_in_test _ _ h]
    simp
  case inr.inr.inl | inr.inr.inr =>
    rw [completes_next rfl]
    simp [h]

/-- Settles O55: link events by the guard of each, the port's instructions by what loading one does in and outside a test mode, and leaving
a test mode by what every chip reset without the cause Power leaves. -/
theorem pcieLinkAndTap : Obligations.PcieLinkAndTap := by
  unfold Obligations.PcieLinkAndTap
  refine ⟨fun _ => pcieLinkUp_trains, fun _ => pcieLinkUp_without_endpoint, fun _ => ⟨_, rfl, rfl⟩, ?powerState, ?outside, ?testMode,
    fun _ _ => leaving_test_mode_resets⟩
  case powerState =>
    exact fun _ hrun hlink => ⟨pcieLinkPowerState_moves_link .l1 hrun hlink, pcieLinkPowerState_moves_link .l23 hrun hlink⟩
  case outside =>
    exact fun _ h => ⟨bypass_outside_test h, idcode_outside_test h, samplePreload_outside_test h, jtagTestExit_outside_test h,
      trstNLow_outside_test h⟩
  case testMode =>
    refine fun s => ⟨extest_sets_test_mode s, debugTestInstruction_sets_test_mode, fun hoff hout => ?_⟩
    unfold completes
    rw [debugTestInstruction_is_bypass hoff]
    exact bypass_outside_test hout

end Sys2Proof.Machine

/-!
PROOF. The family of 02_topiary_image.md: the reset state (R346, R347), arming (R182, R183), the activation of an image (R66, R67), the chip
reset and the boot (R346 to R348), the rungs of a descent (R277).
-/

namespace Sys2Proof.Machine

/-! ## The reset state -/

/-- Settles O60: the state after a Power reset is a closed term; its invariant and registers are evaluated, and a unit of a plane is an
element of a vector of fresh units. -/
theorem resetState : Obligations.ResetState := by
  unfold Obligations.ResetState
  have hsound : State.reset.sound := ⟨by decide, by decide, ⟨by decide, by decide⟩, by decide⟩
  have hthm : State.reset.thmStat = 0x0550003F := by decide
  have hcal : State.reset.cal.ctrlWord = 0x000103E8 := by decide
  have hwake : State.reset.mgtWord 0x2C = 0x6F := by decide
  exact ⟨hsound, rfl, rfl, rfl, rfl, rfl, rfl, rfl, rfl, by decide, hthm, hcal, hwake, rfl, rfl, rfl,
    fun _ => Vector.getElem_replicate _, fun _ => Vector.getElem_replicate _, fun _ => Vector.getElem_replicate _,
    fun _ => Vector.getElem_replicate _, fun _ => Vector.getElem_replicate _, fun _ => Vector.getElem_replicate _⟩

/-! ## Arming (R182, R183) -/

namespace State

theorem onPort_onPort (s : State) (p : Fin 4) (f g : Port → Port) : (s.onPort p f).onPort p g = s.onPort p fun q => g (f q) := by
  simp [onPort, onPorts, upd]

theorem portOnly_onPort (s : State) (p : Fin 4) (f : Port → Port) : s.portOnly p (s.onPort p f) :=
  ⟨rfl, fun _ h => onPort_port_ne s h f⟩

theorem hptWrite_present {s : State} {p : Fin 4} (off : Nat) (f : State → State) (hc : s.clocked = true) (hp : s.hasPort p = true) :
    s.hptWrite p off f = f s := by
  rw [hptWrite, hp, planeWrite_present _ _ hc]

/-- A plane's answer touches the exchange and the message links alone. -/
theorem leaveQuiet_frame (plane : Plane) (s : State) : ∃ q l, s.leaveQuiet plane = { s with quiesce := q, links := l } := by
  dsimp only [leaveQuiet]
  split <;> exact ⟨_, _, rfl⟩

theorem armRefusal_of_no_image {s : State} {p : Fin 4} (dry : Bool) (h : s.top.activeValid = false ∨ s.profile p = none) :
    s.armRefusal p dry = some 0x01 := by
  rcases h with h | h <;> simp [armRefusal, armReasons, h]

section Refusals

variable {s : State} {p : Fin 4} (dry : Bool) (himage : ¬(s.top.activeValid = false ∨ s.profile p = none))
include himage

theorem armRefusal_of_busy (h : s.top.state = .activating ∨ s.flt.safe = true) : s.armRefusal p dry = some 0x02 := by
  rcases h with h | h <;> simp_all [armRefusal, armReasons]

variable (hbusy : ¬(s.top.state = .activating ∨ s.flt.safe = true))
include hbusy

theorem armRefusal_of_cut (h : (s.port p).fire.cut ≠ 0) : s.armRefusal p dry = some 0x03 := by
  simp_all [armRefusal, armReasons]

theorem armRefusal_of_test (hcut : (s.port p).fire.cut = 0) (h : (s.port p).test.busy = true) : s.armRefusal p dry = some 0x04 := by
  simp_all [armRefusal, armReasons]

end Refusals

end State

/-- A port whose arming is refused (R182): DRYRUN as written, and the reason. -/
def Port.armRefused (dry : Bool) (why : Nat) (q : Port) : Port :=
  { q with arm := { q.arm with dryrunReg := dry, refused := true, reason := why } }

/-- A port that a write of HPTn_ARM arms. -/
def Port.armedBy (now : Time48) (dry : Bool) (vioh : Nat) (q : Port) : Port :=
  { q with arm := { q.arm with dryrunReg := dry } }.armed now dry vioh

theorem Links.stopInjection_active (l : Links) : l.stopInjection.inj.active = false := by
  unfold stopInjection
  split <;> rfl

namespace State

section Arming

variable {s : State} {p : Fin 4} {dry : Bool}

theorem armPort_of_armed (h : (s.port p).arm.armed = true) : s.armPort p dry = s := by simp [armPort, h]

variable (hdisarmed : (s.port p).arm.armed = false)
include hdisarmed

theorem armPort_of_refusal {why : Nat} (h : s.armRefusal p dry = some why) :
    s.armPort p dry = s.onPort p (Port.armRefused dry why) := by
  simp only [armPort, hdisarmed, h, onPort_onPort]
  rfl

/-- An arming that nothing refuses: the port starts afresh, the data plane leaves quiescence, and a live arming ends the injections. -/
theorem armPort_of_no_refusal (h : s.armRefusal p dry = none) :
    ∃ q l, s.armPort p dry =
      let armed := { s.onPort p (Port.armedBy s.times.fab dry s.env.vioh) with quiesce := q, links := l }
      if dry then armed else armed.stopInjections := by
  obtain ⟨q, l, e⟩ := leaveQuiet_frame .data (s.onPort p (Port.armedBy s.times.fab dry s.env.vioh))
  refine ⟨q, l, ?_⟩
  rw [← e]
  simp only [armPort, hdisarmed, h, onPort_onPort]
  rfl

end Arming

end State

/-- A refusal changes what the port shows of its arming, and nothing else. -/
theorem arm_refused {s : State} {p : Fin 4} {dry : Bool} {why : Nat} (hd : (s.port p).arm.armed = false)
    (h : s.armRefusal p dry = some why) :
    let t := s.armPort p dry
    t = { s with ports := t.ports } ∧ (∀ q, q ≠ p → t.port q = s.port q) ∧ t.port p = Port.armRefused dry why (s.port p) := by
  rw [State.armPort_of_refusal hd h]
  exact ⟨rfl, (State.portOnly_onPort s p _).2, State.onPort_port s p _⟩

/-- What a live or dry arming leaves: the port armed afresh, and beside it the exchange, the links and the injectors of the ports. -/
theorem arm_accepted {s : State} {p : Fin 4} {dry : Bool} (hd : (s.port p).arm.armed = false) (h : s.armRefusal p dry = none) :
    let t := s.armPort p dry
    t.port p = Port.armedBy s.times.fab dry s.env.vioh (s.port p) ∧ (∀ q, q ≠ p → t.port q = s.port q) ∧
      (dry = true → t = { s with ports := t.ports, quiesce := t.quiesce, links := t.links }) ∧
      (dry = false → t.links.inj.active = false ∧ (∀ n, (t.tlk n).inj.active = false) ∧
        t = { s with ports := t.ports, quiesce := t.quiesce, links := t.links, tlks := t.tlks }) := by
  obtain ⟨q, l, e⟩ := State.armPort_of_no_refusal hd h
  rw [e]
  have hself := State.onPort_port s p (Port.armedBy s.times.fab dry s.env.vioh)
  have hother := (State.portOnly_onPort s p (Port.armedBy s.times.fab dry s.env.vioh)).2
  cases dry with
  | true => exact ⟨hself, hother, fun _ => rfl, nofun⟩
  | false =>
    refine ⟨hself, hother, nofun, fun _ => ⟨Links.stopInjection_active l, fun n => ?_, rfl⟩⟩
    simp [State.stopInjections, State.tlk, Injector.stop]

theorem disarm_marks {s : State} {p : Fin 4} (h : (s.port p).arm.armed = true) :
    (s.onPort p Port.startDisarm).port p = { s.port p with arm := { (s.port p).arm with disarming := true } } := by
  rw [State.onPort_port, Port.startDisarm, if_pos h]

namespace State

/-- A channel that withdraws touches the channels and the engines' grants alone. -/
theorem withdrawChan_frame (c : Fin 64) (f : Chan → Chan) (s : State) :
    ∃ ch en, s.withdrawChan c f = { s with dma := { s.dma with chans := ch, engines := en } } := by
  dsimp only [withdrawChan]
  split <;> exact ⟨_, _, rfl⟩

/-- The end of an arming: the port disarmed, a seam cancelled over the link, the port's channel withdrawn. -/
theorem endArming_frame (p : Fin 4) (cause : Nat) {s : State} (h : (s.port p).arm.armed = true) :
    ∃ l ch en, s.endArming p cause =
      { s.onPort p (Port.disarmed cause) with links := l, dma := { s.dma with chans := ch, engines := en } } := by
  have hcancel : ∃ l, (if (s.port p).seam.state != 0 && cause != 3 then
      s.sendSeam true typeSeamResume (s.port p).seam.tag p true (s.port p).seam.fpos else s) = { s with links := l } := by
    split <;> exact ⟨_, rfl⟩
  obtain ⟨l, hcancel⟩ := hcancel
  simp only [endArming, h, if_true, hcancel]
  split
  · obtain ⟨ch, en, e⟩ := withdrawChan_frame ‹_› (fun k => k.settle (s.prof p) (s.port p).sos.lines (s.port p).pdp.fired)
      (onPort p (Port.disarmed cause) { s with links := l })
    exact ⟨l, ch, en, e⟩
  · exact ⟨l, _, _, rfl⟩

theorem endArming_port (p : Fin 4) (cause : Nat) {s : State} (h : (s.port p).arm.armed = true) :
    (s.endArming p cause).port p = Port.disarmed cause (s.port p) ∧ ∀ q, q ≠ p → (s.endArming p cause).port q = s.port q := by
  obtain ⟨l, ch, en, e⟩ := endArming_frame p cause h
  rw [e]
  exact ⟨onPort_port s p _, (portOnly_onPort s p _).2⟩

end State

/-- Settles O20: each reason of R182 by its place in the table, an arming that nothing refuses by what it leaves of the port and beside it,
the end of an arming by its frame. -/
theorem armAndDisarm : Obligations.ArmAndDisarm := by
  unfold Obligations.ArmAndDisarm
  refine ⟨fun p dry s hc hp hd => ?arm, fun p dry s hc hp ha => ?armed, fun p s hc hp ha => ?disarm, fun p s ha hd ho => ?complete⟩
  case arm =>
    rw [completes_next rfl, State.hptWrite_present _ _ hc hp]
    have refused {why : Nat} (h : s.armRefusal p dry = some why) := arm_refused hd h
    refine ⟨fun hi => refused (State.armRefusal_of_no_image dry hi), fun hi hb => refused (State.armRefusal_of_busy dry hi hb),
      fun hi hb hcut => refused (State.armRefusal_of_cut dry hi hb hcut),
      fun hi hb hcut ht => refused (State.armRefusal_of_test dry hi hb hcut ht), fun why => refused, fun h => ?_⟩
    obtain ⟨hp', hother, hdry, hlive⟩ := arm_accepted hd h
    rw [hp']
    exact ⟨rfl, rfl, rfl, rfl, rfl, rfl, rfl, rfl, rfl, rfl, rfl, rfl, hother, hdry, hlive⟩
  case armed =>
    rw [completes_next rfl, State.hptWrite_present _ _ hc hp, State.armPort_of_armed ha]
  case disarm =>
    rw [completes_next rfl, State.hptWrite_present _ _ hc hp]
    exact ⟨State.portOnly_onPort s p _, disarm_marks ha⟩
  case complete =>
    rw [completes_next rfl, hd, ho]
    obtain ⟨hport, hother⟩ := State.endArming_port p 0 ha
    simp only [Bool.and_self, if_true, hport]
    refine ⟨rfl, rfl, rfl, rfl, rfl, rfl, hother, ?frame⟩
    obtain ⟨l, ch, en, e⟩ := State.endArming_frame p 0 ha
    rw [e]
    rfl

/-! ## Bank power (R249, R275) -/

theorem updNat_get {α : Type} {n : Nat} (v : Vector α n) (k : Nat) (i : Fin n) (f : α → α) :
    (updNat v k f)[i.val] = if k = i.val then f v[i.val] else v[i.val] := by
  unfold updNat
  split
  · rw [Vector.getElem_set]
    split <;> simp_all
  · next h => rw [if_neg (by omega)]

theorem look_clearRange {w : Nat} (l : List (Nat × BitVec w)) {lo hi a : Nat} (h : a < lo ∨ hi ≤ a) :
    look (clearRange l lo hi) a = look l a := by
  induction l with
  | nil => rfl
  | cons x rest ih =>
    obtain ⟨k, v⟩ := x
    unfold clearRange at ih ⊢
    rw [List.filter_cons]
    split
    · simp only [look, ih]
    · next hk =>
      have hne : k ≠ a := by
        rintro rfl
        simp at hk
        omega
      rw [ih, look, if_neg hne]

/-- What lies outside a range of whole blocks reads as before when the range is lost. -/
theorem Mem.readByte_lose (m : Mem) {lo hi a : Nat} (h : a / 256 * 256 + 256 ≤ lo ∨ hi ≤ a / 256 * 256) :
    (m.lose lo hi).readByte a = m.readByte a := by
  have ha : a < lo ∨ hi ≤ a := by omega
  have hwritten : (m.lose lo hi).written.contains (a / 256) = m.written.contains (a / 256) := by
    rw [Bool.eq_iff_iff, List.contains_iff_mem, List.contains_iff_mem, lose, List.mem_filter]
    simp [h]
  unfold readByte
  rw [hwritten]
  simp only [lose, look_clearRange _ ha]

/-- The power a bank takes (R249). -/
def bankPower (x : Bool × Bool) : BankState := if x.1 then .on else if x.2 then .retained else .off

namespace MemSys

/-- A bank's power touches the line store, the banks' states and their readiness. -/
theorem setBank_frame (n : Nat) (on ret : Bool) (m : MemSys) :
    ∃ ls bk rd, m.setBank n on ret = { m with lineStore := ls, banks := bk, ready := rd } := by
  cases on <;> cases ret <;> exact ⟨_, _, _, rfl⟩

theorem setBanks_frame (f : Nat → Bool × Bool) (m : MemSys) :
    ∃ ls bk rd, m.setBanks f = { m with lineStore := ls, banks := bk, ready := rd } := by
  unfold setBanks
  induction List.range 16 generalizing m with
  | nil => exact ⟨_, _, _, rfl⟩
  | cons n rest ih =>
    obtain ⟨ls, bk, rd, e⟩ := setBank_frame n (f n).1 (f n).2 m
    rw [List.foldl_cons, e]
    exact ih _

theorem setBank_banks (n : Nat) (x : Bool × Bool) (m : MemSys) : (m.setBank n x.1 x.2).banks = updNat m.banks n fun _ => bankPower x := by
  obtain ⟨on, ret⟩ := x
  cases on <;> cases ret <;> rfl

theorem setBank_readByte {n a : Nat} {x : Bool × Bool} (m : MemSys) (h : n = a / 0x80000 → bankPower x ≠ .off) :
    (m.setBank n x.1 x.2).lineStore.readByte a = m.lineStore.readByte a := by
  obtain ⟨on, ret⟩ := x
  by_cases hn : n = a / 0x80000
  · have := h hn
    cases on <;> cases ret <;> simp_all [bankPower, setBank]
  · have hout : a / 256 * 256 + 256 ≤ n * bankSize ∨ n * bankSize + bankSize ≤ a / 256 * 256 := by
      unfold bankSize
      omega
    cases on <;> cases ret <;> simp [setBank, Mem.readByte_lose _ hout]

theorem setBanks_get (f : Nat → Bool × Bool) (m : MemSys) (b : Fin 16) : (m.setBanks f).banks[b.val] = bankPower (f b.val) := by
  have h (l : List Nat) (k : MemSys) : (l.foldl (fun k n => k.setBank n (f n).1 (f n).2) k).banks[b.val] =
      if b.val ∈ l then bankPower (f b.val) else k.banks[b.val] := by
    induction l generalizing k with
    | nil => simp
    | cons n rest ih =>
      simp only [List.foldl_cons, ih, setBank_banks, updNat_get, List.mem_cons]
      by_cases e : n = b.val <;> simp_all [eq_comm]
  rw [setBanks, h, if_pos (List.mem_range.2 b.isLt)]

theorem setBanks_readByte {f : Nat → Bool × Bool} (m : MemSys) {a : Nat} (h : bankPower (f (a / 0x80000)) ≠ .off) :
    (m.setBanks f).lineStore.readByte a = m.lineStore.readByte a := by
  unfold setBanks
  induction List.range 16 generalizing m with
  | nil => rfl
  | cons n rest ih =>
    rw [List.foldl_cons, ih, setBank_readByte]
    rintro rfl
    exact h

theorem retainBanks_get (m : MemSys) (b : Fin 16) :
    m.retainBanks.banks[b.val] ≠ .on ∧
      (m.retainBanks.banks[b.val] = .retained ↔ m.ret.getLsbD b.val = true ∧ m.banks[b.val] = .on) := by
  have hbank : elem? m.banks b.val = some m.banks[b.val] := Vector.getElem?_eq_getElem b.isLt
  rw [retainBanks, setBanks_get, bankPower, hbank]
  have hkept : (m.ret.getLsbD b.val && some m.banks[b.val] == some BankState.on) = true ↔
      m.ret.getLsbD b.val = true ∧ m.banks[b.val] = .on := by
    simp
  rw [if_neg Bool.false_ne_true]
  split
  · next h => exact ⟨nofun, fun _ => hkept.1 h, fun _ => rfl⟩
  · next h => exact ⟨nofun, nofun, fun hk => absurd (hkept.2 hk) h⟩

theorem retainBanks_readByte (m : MemSys) {a : Nat} (hret : m.ret.getLsbD (a / 0x80000) = true) (hon : m.banks[a / 0x80000]? = some .on) :
    m.retainBanks.lineStore.readByte a = m.lineStore.readByte a := by
  refine setBanks_readByte m ?_
  simp [bankPower, elem?, hret, hon]

end MemSys

/-! ## Activation (R66, R67) -/

@[simp] theorem mapIdx_get {α : Type} {n : Nat} (f : Nat → α → α) (v : Vector α n) (i : Fin n) :
    (mapIdx f v)[i.val] = f i.val v[i.val] := by
  simp [mapIdx]

namespace State

theorem changeRegime_frame (f : State → State) (s : State) :
    ∃ th, s.changeRegime f = { f s with thm := th } ∧ th.startup = (f s).thm.startup := by
  refine ⟨_, rfl, ?_⟩
  dsimp only
  split
  · rfl
  · split <;> rfl

theorem startDomains_frame (i : Image) (s : State) : ∃ ti fb c, s.startDomains i = { s with times := ti, fab := fb, cal := c } := by
  dsimp only [startDomains]
  split <;> split <;> split <;> exact ⟨_, _, _, rfl⟩

/-- Only the cores differ, and no slot's state. -/
def keepsSlotStates (s t : State) : Prop := (∃ k, t = { s with cores := k }) ∧ ∀ c j, (t.slot c j).state = (s.slot c j).state

theorem onSeamGen_keepsSlotStates (n : Fin 8) (f : Gen → Gen) (s : State) : s.keepsSlotStates (s.onSeamGen n f) := by
  unfold onSeamGen
  split
  · next x _ =>
    refine ⟨⟨_, rfl⟩, fun c j => ?_⟩
    by_cases h : (c, j) = x
    · subst h
      rw [onSlot_slot]
    · rw [onSlot_slot_ne _ h]
  · exact ⟨⟨_, rfl⟩, fun _ _ => rfl⟩

theorem onSeamGens_keepsSlotStates (f : Fin 8 → Gen → Gen) (l : List (Fin 8)) (s : State) :
    s.keepsSlotStates (l.foldl (fun t n => t.onSeamGen n (f n)) s) := by
  induction l generalizing s with
  | nil => exact ⟨⟨_, rfl⟩, fun _ _ => rfl⟩
  | cons n rest ih =>
    obtain ⟨⟨k, e⟩, h⟩ := onSeamGen_keepsSlotStates n (f n) s
    obtain ⟨⟨k', e'⟩, h'⟩ := ih (s.onSeamGen n (f n))
    refine ⟨⟨k', ?_⟩, fun c j => (h' c j).trans (h c j)⟩
    rw [List.foldl_cons, e', e]

theorem calibrateSense_frame (s : State) : ∃ c r, s.calibrateSense = { s with cal := c, free := r } ∧ c.samples = s.cal.samples := by
  unfold calibrateSense
  induction portNumbers generalizing s with
  | nil => exact ⟨_, _, rfl, rfl⟩
  | cons p rest ih =>
    rw [List.foldl_cons]
    split
    · obtain ⟨c, r, e, h⟩ := ih _
      exact ⟨c, r, e, h⟩
    · exact ih s

end State

/-- The port `t` is `q` under a new structure: no valid tag, no line committed or assembled, no seam; arming and head stay. -/
def Port.startsAnew (q t : Port) : Prop :=
  t.pdp.valid = [] ∧ t.pdp.f = -1 ∧ t.pdp.asm = [] ∧ t.seam.state = 0 ∧ t.fire.committed = none ∧ t.arm = q.arm ∧ t.head = q.head

/-- Every slot of an image starts parked, or is free. -/
theorem Image.slotAt_state (i : Image) (c k : Nat) : (i.slotAt c k).state = .parked ∨ (i.slotAt c k).state = .free := by
  unfold slotAt
  split
  · exact .inl rfl
  · exact .inr rfl

/-- A sprig starts inactive. -/
theorem Image.sprigAt_active (i : Image) (n : Nat) : (i.sprigAt n).active = false := by
  dsimp only [sprigAt]
  repeat' split
  all_goals rfl

namespace State

/-- What an activation leaves as it was: the clocks' and supply's registers, the ladder, links, OTP, nodes, DMA and host side,
fault records, both slots and both keep RAMs. -/
structure KeepsOutsideStructure (s t : State) : Prop where
  sys : t.sys = s.sys
  ladder : t.ladder = s.ladder
  links : t.links = s.links
  otp : t.otp = s.otp
  nodes : t.nodes = s.nodes
  dma : t.dma = s.dma
  host : t.host = s.host
  flt : t.flt = { s.flt with react := t.flt.react }
  staged : t.mem.staged = s.mem.staged
  active : t.mem.active = s.mem.active
  keepMgmt : t.mem.keepMgmt = s.mem.keepMgmt
  keepDma : t.mem.keepDma = s.mem.keepDma

theorem KeepsOutsideStructure.trans {s t u : State} (h : KeepsOutsideStructure s t) (k : KeepsOutsideStructure t u) :
    KeepsOutsideStructure s u where
  sys := k.sys.trans h.sys
  ladder := k.ladder.trans h.ladder
  links := k.links.trans h.links
  otp := k.otp.trans h.otp
  nodes := k.nodes.trans h.nodes
  dma := k.dma.trans h.dma
  host := k.host.trans h.host
  flt := by rw [k.flt, h.flt]
  staged := k.staged.trans h.staged
  active := k.active.trans h.active
  keepMgmt := k.keepMgmt.trans h.keepMgmt
  keepDma := k.keepDma.trans h.keepDma

theorem startDomains_keeps (i : Image) (s : State) : KeepsOutsideStructure s (s.startDomains i) := by
  obtain ⟨ti, fb, c, e⟩ := startDomains_frame i s
  rw [e]
  constructor <;> rfl

theorem installBanks_keeps (i : Image) (s : State) : KeepsOutsideStructure s (s.installBanks i) := by
  obtain ⟨ls, bk, rd, e⟩ := MemSys.setBanks_frame (fun n => ((BitVec.ofNat 16 (i.powerMap s.sys.variant).1).getLsbD n, false))
    { s.mem with on := BitVec.ofNat 16 (i.powerMap s.sys.variant).1, ret := BitVec.ofNat 16 (i.powerMap s.sys.variant).2 }
  have h : s.installBanks i = { s with mem := _ } := congrArg (fun m => { s with mem := m }) e
  rw [h]
  constructor <;> rfl

/-- The caps in force reach the seam slots' generators and each port's CAPSENT, and nothing else. -/
theorem installLimits_frame (s : State) :
    ∃ k pt, s.installLimits = { s with cores := k, ports := pt } ∧ s.keepsSlotStates { s with cores := k } ∧
      ∀ p : Fin 4, ∃ cap, pt[p.val] = { s.port p with fire := { (s.port p).fire with capSent := cap } } := by
  have hkeeps := onSeamGens_keepsSlotStates (fun n g => { g with vlim := s.seamLimit n }) (List.finRange 8) s
  unfold installLimits
  obtain ⟨k, e⟩ := hkeeps.1
  rw [e] at hkeeps ⊢
  exact ⟨k, _, rfl, hkeeps, fun p => ⟨_, mapIdx_get _ _ p⟩⟩

/-- The blocks that an image configures, before the limits of its caps. -/
def installBlocks (i : Image) (s : State) : State :=
  ((((s.onTop fun t => { t with image := i }).installControl i).installPorts i).installBanks i).onFlt fun f =>
    { f with react := Vector.ofFn fun n => i.reactOf n.val }

theorem installBlocks_keeps (i : Image) (s : State) : KeepsOutsideStructure s (s.installBlocks i) :=
  have hconfigure : KeepsOutsideStructure s (((s.onTop fun t => { t with image := i }).installControl i).installPorts i) := by
    constructor <;> simp [installControl, installPorts]
  have hreact (u : State) : KeepsOutsideStructure u (u.onFlt fun f => { f with react := Vector.ofFn fun n => i.reactOf n.val }) := by
    constructor <;> simp
  (hconfigure.trans (installBanks_keeps i _)).trans (hreact _)

theorem installBlocks_top (i : Image) (s : State) : (s.installBlocks i).top = { s.top with image := i } := by
  simp [installBlocks, installBanks, installPorts, installControl]

theorem installBlocks_times (i : Image) (s : State) : (s.installBlocks i).times = s.times := by
  simp [installBlocks, installBanks, installPorts, installControl]

theorem installBlocks_cal (i : Image) (s : State) : (s.installBlocks i).cal = s.cal := by
  simp [installBlocks, installBanks, installPorts, installControl]

theorem installBlocks_slot (i : Image) (s : State) (c : Fin 4) (k : Fin 24) : (s.installBlocks i).slot c k = i.slotAt c.val k.val := by
  simp [installBlocks, installBanks, installPorts, installControl, slot, core]

theorem installBlocks_sprig (i : Image) (s : State) (n : Fin 96) :
    (s.installBlocks i).sprig n = { i.sprigAt n.val with tach := { start := s.times.fab }, peak := { seen := s.cal.samples } } := by
  simp [installBlocks, installBanks, installPorts, installControl, sprig]

theorem installBlocks_port (i : Image) (s : State) (p : Fin 4) :
    (s.installBlocks i).port p = Port.install (i.profiles.find? fun r => r.port = p.val) (s.port p) := by
  simp [installBlocks, installBanks, installPorts, installControl, port]

/-- What installing an image leaves of the blocks it configures. -/
structure Installed (i : Image) (s t : State) : Prop where
  keeps : KeepsOutsideStructure s t
  top : t.top = { s.top with image := i }
  startup : t.thm.startup = false
  slot : ∀ c k, (t.slot c k).state = .parked ∨ (t.slot c k).state = .free
  sprig : ∀ n, t.sprig n = { i.sprigAt n.val with tach := { start := t.times.fab }, peak := { seen := t.cal.samples } }
  port : ∀ p, (s.port p).startsAnew (t.port p)

/-- The last steps of an installation: the limits of the caps, and the end of the start-up regime (R298). -/
theorem installed_of_blocks {i : Image} {s u : State} (keeps : KeepsOutsideStructure s u) (top : u.top = { s.top with image := i })
    (slot : ∀ c k, u.slot c k = i.slotAt c.val k.val)
    (sprig : ∀ n, u.sprig n = { i.sprigAt n.val with tach := { start := u.times.fab }, peak := { seen := u.cal.samples } })
    (port : ∀ p, u.port p = Port.install (i.profiles.find? fun r => r.port = p.val) (s.port p)) :
    Installed i s (u.installLimits.changeRegime fun t => t.onThm fun h => { h with startup := false }) := by
  obtain ⟨k, pt, elimits, hslots, hports⟩ := installLimits_frame u
  obtain ⟨th, eregime, hstartup⟩ := changeRegime_frame (fun t => t.onThm fun h => { h with startup := false }) u.installLimits
  have hlast : KeepsOutsideStructure u ({ u with cores := k, ports := pt, thm := th } : State) := by constructor <;> rfl
  rw [eregime, elimits]
  refine ⟨keeps.trans hlast, top, hstartup, fun c j => ?slot, sprig, fun p => ?port⟩
  case slot =>
    have h := hslots.2 c j
    rw [slot] at h
    exact h ▸ i.slotAt_state c j
  case port =>
    obtain ⟨cap, h⟩ := hports p
    rw [port] at h
    change (s.port p).startsAnew pt[p.val]
    rw [h]
    exact ⟨rfl, rfl, rfl, rfl, rfl, rfl, rfl⟩

theorem installImage_installed (i : Image) (s : State) : Installed i s (s.installImage i) := by
  obtain ⟨ti, fb, c, e⟩ := startDomains_frame i s
  refine installed_of_blocks (u := (s.startDomains i).installBlocks i) ((startDomains_keeps i s).trans (installBlocks_keeps i _)) ?top
    (installBlocks_slot i _) ?sprig ?port
  case top => rw [installBlocks_top, e]
  case sprig =>
    intro n
    rw [installBlocks_sprig, installBlocks_times, installBlocks_cal]
  case port =>
    intro p
    rw [installBlocks_port, e]
    rfl

/-- The end of a swap: the sense converters calibrated, the slots exchanged, the loader idle with the image in force. -/
def finishSwap (i : Image) (s : State) : State :=
  (s.calibrateSense.swapSlots.onTop fun t =>
    { t with state := .idle, stagedValid := false, prepared := none, activeValid := true, swapDone := true, actId := i.id }).onQuiesce fun _ => {}

theorem swapImage_eq (i : Image) (s : State) : s.swapImage i = (s.installImage i).finishSwap i := rfl

theorem finishSwap_frame (i : Image) (s : State) : ∃ c r, c.samples = s.cal.samples ∧
    s.finishSwap i = { s with
      cal := c, free := r, quiesce := {}, mem := { s.mem with staged := s.mem.active, active := s.mem.staged }
      top := { s.top with state := .idle, stagedValid := false, prepared := none, activeValid := true, swapDone := true, actId := i.id } } := by
  obtain ⟨c, r, e, h⟩ := calibrateSense_frame s
  refine ⟨c, r, h, ?_⟩
  rw [finishSwap, e]
  rfl

theorem swapHold_of_recorded {s : State} (hstate : s.top.state = .activating) (hpurpose : s.quiesce.purpose = .activation)
    (hcontrol : s.quiesce.control = .recorded) (hdata : s.quiesce.data = .recorded) : s.swapHold = true := by
  simp [swapHold, bothRecorded, hstate, hpurpose, hcontrol, hdata]

theorem swapHold_of_unconfirmed {s : State} (h : s.quiesce.control ≠ .recorded ∨ s.quiesce.data ≠ .recorded ∨ s.top.state ≠ .activating) :
    s.swapHold = false := by
  rcases h with h | h | h <;> simp [swapHold, bothRecorded, h]

end State

theorem activationSwap_held {s : State} {i : Image} (hprep : s.top.prepared = some i) (hrun : s.running = true) (hhold : s.swapHold = true) :
    exec .activationSwap s = .next (s.swapImage i) := by
  change execActivationSwap s = _
  simp [execActivationSwap, hprep, hrun, hhold]

theorem activationSwap_not_held {s : State} (hhold : s.swapHold = false) : exec .activationSwap s = .next s := by
  change execActivationSwap s = _
  simp only [execActivationSwap, hhold, Bool.and_false]
  split <;> rfl

/-- Settles O44: installing an image keeps what is no part of the structure and starts each block anew; the rest of the swap exchanges the
slots and puts the image in force. -/
theorem activationSwaps : Obligations.ActivationSwaps := by
  unfold Obligations.ActivationSwaps
  refine ⟨fun i s hrun hstate hprep hpurpose hcontrol hdata => ?swap, fun s h => ?unconfirmed⟩
  case swap =>
    have hhold := State.swapHold_of_recorded hstate hpurpose hcontrol hdata
    have installed := State.installImage_installed i s
    rw [completes_next (activationSwap_held hprep hrun hhold), State.swapImage_eq]
    generalize s.installImage i = v at installed
    obtain ⟨keeps, top, startup, slot, sprig, port⟩ := installed
    obtain ⟨c, r, hsamples, e⟩ := State.finishSwap_frame i v
    rw [e]
    refine ⟨keeps.active, keeps.staged, keeps.keepMgmt, keeps.keepDma, congrArg Top.image top, rfl, rfl, rfl, rfl, rfl, rfl, rfl, startup,
      slot, fun n => ⟨?sprig, ?inactive⟩, port, keeps.flt, keeps.dma, keeps.links, keeps.nodes, keeps.host, keeps.sys, keeps.otp, keeps.ladder⟩
    case sprig =>
      rw [hsamples]
      exact sprig n
    case inactive => exact (congrArg Sprig.active (sprig n)).trans (i.sprigAt_active n.val)
  case unconfirmed =>
    rw [completes_next (activationSwap_not_held (State.swapHold_of_unconfirmed h))]

/-! ## The chip reset (R346, R347) -/

theorem fld_eq_iff (w : Word) (lo width n : Nat) (h : n < 2 ^ width) :
    fld w lo width = n ↔ w.extractLsb' lo width = BitVec.ofNat width n := by
  rw [← BitVec.toNat_inj, BitVec.extractLsb'_toNat, BitVec.toNat_ofNat, Nat.mod_eq_of_lt h, fld, bitsOf, Nat.shiftRight_eq_div_pow]

namespace Otp

theorem bootRead_array (o : Otp) (trim : Fin 3 → Word) : (o.bootRead trim).array = o.array := by dsimp only [bootRead]

theorem bootRead_keyLatch (o : Otp) (trim : Fin 3 → Word) : (o.bootRead trim).keyLatch = o.deviceKey := by dsimp only [bootRead]

end Otp

namespace State

theorem dropOtp_of_no_pulse {s : State} (h : s.otp.op = none) : s.dropOtp = s := by simp [dropOtp, h]

theorem resetFor_of_none {s : State} (c : ResetCauses) (h : s.sys.resetOwed = none) : s.resetFor c = s.chipReset c 0 := by
  simp [resetFor, h]

theorem resetFor_of_some {s : State} {source : Nat} (c : ResetCauses) (h : s.sys.resetOwed = some source) :
    s.resetFor c = s.chipReset { c with fault := true } source := by
  simp [resetFor, h]

theorem resetSensed_iff (s : State) : s.resetSensed = true ↔ s.ladder.rung ≠ 7 ∨ ∃ k, s.ladder.phase = .exit (k + 1) := by
  unfold resetSensed
  cases s.ladder.phase with
  | exit k => cases k <;> simp
  | _ => simp

/-- A chip reset leaves the part but for what is none of the block and, where its cause is not Power, the survivors of R347. -/
theorem chipReset_frame (c : ResetCauses) (source : Nat) {s : State} (hop : s.otp.op = none) :
    ∃ f m cl ld h, s.chipReset c source =
        { s.outside with sys := (s.chipReset c source).sys, flt := f, mem := m, cal := cl, ladder := ld, host := h } ∧
      f.safe = false ∧ m.lineStore = {} ∧ m.capture = Vector.replicate 4 {} ∧
      ld.rung = 0 ∧ ld.phase = .idle ∧ h.link = .down ∧ h.held = [] ∧
      (c.power = false → f = s.flt.survive ∧ m = s.mem.survive s.top.activeValid ∧ cl = { fieldSets := s.cal.fieldSets }) ∧
      (c.power = true → f = {} ∧ m = {} ∧ cl = {}) := by
  cases hp : c.power with
  | false =>
    refine ⟨s.flt.survive, s.mem.survive s.top.activeValid, { fieldSets := s.cal.fieldSets }, s.ladder.survive, s.host.survive, ?_,
      rfl, rfl, rfl, rfl, rfl, rfl, rfl, fun _ => ⟨rfl, rfl, rfl⟩, nofun⟩
    simp only [chipReset, hp, dropOtp_of_no_pulse hop]
    rfl
  | true =>
    refine ⟨{}, {}, {}, {}, {}, ?_, rfl, rfl, rfl, rfl, rfl, rfl, rfl, nofun, fun _ => ⟨rfl, rfl, rfl⟩⟩
    simp only [chipReset, hp, dropOtp_of_no_pulse hop]
    rfl

theorem chipReset_causes (c : ResetCauses) (source : Nat) (s : State) :
    (s.chipReset c source).sys.causes = if s.sys.phase = .inReset then orCauses s.sys.causes c else c := by
  simp [chipReset]

/-- The key and command of MGT_CMD that ask for a chip reset (R346). -/
theorem cmd_fields_iff (v : Word) :
    (fld v 16 16 = 0x5253 && fld v 0 8 = 1) = true ↔ v.extractLsb' 16 16 = 0x5253 ∧ v.extractLsb' 0 8 = 1 := by
  rw [Bool.and_eq_true, decide_eq_true_iff, decide_eq_true_iff, fld_eq_iff v 16 16 0x5253 (by decide), fld_eq_iff v 0 8 1 (by decide)]
  rfl

theorem writeCmd_key (s : State) {v : Word} (h : v.extractLsb' 16 16 = 0x5253 ∧ v.extractLsb' 0 8 = 1) :
    s.writeCmd v = s.resetFor { cmd := true } := if_pos ((cmd_fields_iff v).2 h)

theorem writeCmd_other (s : State) {v : Word} (h : ¬(v.extractLsb' 16 16 = 0x5253 ∧ v.extractLsb' 0 8 = 1)) : s.writeCmd v = s :=
  if_neg (mt (cmd_fields_iff v).1 h)

/-! ## Sources raised -/

/-- From `s` to `t` no more differs than what raising a source that resets no block can change. -/
def raisedTo (s t : State) : Prop :=
  ∃ f h th l o, t = { s with flt := f, host := h, thm := th, links := l, sys := { s.sys with resetOwed := o } }

theorem raisedTo_refl (s : State) : s.raisedTo s := ⟨_, _, _, _, _, rfl⟩

theorem raisedTo.trans {s t u : State} (h : s.raisedTo t) (k : t.raisedTo u) : s.raisedTo u := by
  obtain ⟨_, _, _, _, _, rfl⟩ := h
  obtain ⟨_, _, _, _, _, rfl⟩ := k
  exact ⟨_, _, _, _, _, rfl⟩

theorem collect_raisedTo (d : Detection) (s : State) : s.raisedTo (s.collect d) := by
  unfold collect
  rw [sendAll_host]
  simp only [onSys]
  split <;> exact ⟨_, _, _, _, _, rfl⟩

theorem raise_raisedTo {source : Nat} (plane : Plane) (kind index : Nat) (s : State) (h : resetsNoBlock source) :
    s.raisedTo (s.raise plane source kind index) := by
  dsimp only [raise]
  split
  · rw [detect, resetBlock_none _ (.inl h)]
    exact raisedTo.trans ⟨_, _, _, _, _, signalFatal_frame _ s⟩ (collect_raisedTo _ _)
  · unfold report
    split
    · rw [resetBlock_none _ (.inl h)]
      exact ⟨_, _, _, _, _, rfl⟩
    · exact raisedTo_refl s

theorem raiseIf_raisedTo {source : Nat} (b : Bool) (plane : Plane) (kind index : Nat) (s : State) (h : resetsNoBlock source) :
    s.raisedTo (s.raiseIf b plane source kind index) := by
  unfold raiseIf
  split
  · exact raise_raisedTo plane kind index s h
  · exact raisedTo_refl s

theorem foldl_raisedTo {α : Type} {f : State → α → State} (hf : ∀ (s : State) x, s.raisedTo (f s x)) (l : List α) (s : State) :
    s.raisedTo (l.foldl f s) := by
  induction l generalizing s with
  | nil => exact raisedTo_refl s
  | cons x rest ih => exact (hf s x).trans (ih _)

/-! ## The boot (R348) -/

theorem raiseOtpSources_raisedTo (s : State) : s.raisedTo s.raiseOtpSources := by
  have h61 : resetsNoBlock 0x61 := by simp [resetsNoBlock]
  have h62 : resetsNoBlock 0x62 := by simp [resetsNoBlock]
  have hfallback : resetsNoBlock (if s.otp.variantMarginalOnly then 0x61 else 0x62) := by
    split
    · exact h61
    · exact h62
  exact (foldl_raisedTo (fun t w => raise_raisedTo .management 10 w t h61) _ s).trans
    ((foldl_raisedTo (fun t r => raise_raisedTo .management 10 (otpRegion r).lockWord t h62) _ _).trans
      (raiseIf_raisedTo _ .management 10 1 _ hfallback))

/-- The boot reads give the OTP block its values and the part its variant, and raise what they find. -/
theorem bootReads_frame (s : State) : ∃ f h th l o, s.bootReads =
    { s with otp := s.otp.bootRead Config.nominalTrim, flt := f, host := h, thm := th, links := l
             sys := { s.sys with variant := s.otp.variantOf, fallback := !s.otp.variantOk, resetOwed := o } } := by
  obtain ⟨f, h, th, l, o, e⟩ := raiseOtpSources_raisedTo ((s.onOtp fun o => o.bootRead Config.nominalTrim).onSys fun y =>
    { y with variant := s.otp.variantOf, fallback := !s.otp.variantOk })
  refine ⟨f, h, th, l, o, ?_⟩
  rw [bootReads, e]
  simp only [onOtp, onSys]

theorem copyKey_keyStore {s : State} {p : Fin 4} (h : p.val < s.sys.variant.ports) : (s.copyKey.port p).head.keyStore = s.otp.keyLatch := by
  simp [copyKey, port, h]

/-- The boot order after the boot reads, up to the choice of the reference. -/
def bootRest (s : State) : State :=
  (s.loadSets.copyKey.allBanksOn.onMem MemSys.applyBanks).onFlt fun f =>
    { f with records := f.records.map fun r => if r.preReset then { r with visible := true } else r }

theorem bootRest_frame (s : State) : ∃ f c pt m, s.bootRest = { s with flt := f, cal := c, ports := pt, mem := m } ∧
    m.ret = 0 ∧ m.on = presentBanks s.sys.variant ∧ (∀ k, k ∈ f.records → k.preReset = true → k.visible = true) ∧
    ∀ p : Fin 4, p.val < s.sys.variant.ports → pt[p.val].head.keyStore = s.otp.keyLatch := by
  let powered : MemSys := { s.mem with on := presentBanks s.sys.variant, ret := 0 }
  obtain ⟨ls, bk, rd, ebanks⟩ := MemSys.setBanks_frame (fun n => (powered.on.getLsbD n, false)) powered
  refine ⟨_, _, _, powered.applyBanks, rfl, ?ret, ?on, ?visible, ?keys⟩
  case ret => exact congrArg MemSys.ret ebanks
  case on => exact congrArg MemSys.on ebanks
  case visible =>
    intro k hk
    obtain ⟨r, -, rfl⟩ := List.mem_map.1 hk
    split
    · exact fun _ => rfl
    · exact fun h => absurd h ‹_›
  case keys => exact fun p hp => copyKey_keyStore (s := s.loadSets) hp

/-- The boot order up to the choice of the reference. -/
def bootCore (s : State) : State := (s.onSys fun y => { y with phase := .waitReference, x32backup := !y.x32ok }).bootReads.bootRest

theorem bootUp_eq (xtal : Bool) (s : State) :
    s.bootUp xtal = if xtal then s.bootCore.startClocks .xi25 else if s.env.refck then s.bootCore.startClocks .pcie else s.bootCore := rfl

theorem startClocks_frame (ref : RefSel) (s : State) :
    ∃ l, s.startClocks ref = { s with links := l, sys := { s.sys with phase := .running, ref := ref, pllLock := true } } := ⟨_, rfl⟩

theorem bootUp_frame (xtal : Bool) (s : State) : ∃ l, s.bootUp xtal =
    { s.bootCore with
      links := l
      sys := { s.bootCore.sys with
        phase := if xtal || s.env.refck then .running else s.bootCore.sys.phase
        ref := if xtal then .xi25 else if s.env.refck then .pcie else s.bootCore.sys.ref
        pllLock := xtal || s.env.refck || s.bootCore.sys.pllLock } } := by
  rw [bootUp_eq]
  cases xtal <;> cases s.env.refck <;> exact ⟨_, rfl⟩

theorem bootCore_frame (s : State) : ∃ f h th l o c pt m, s.bootCore =
    { s with otp := s.otp.bootRead Config.nominalTrim, flt := f, host := h, thm := th, links := l, cal := c, ports := pt, mem := m
             sys := { s.sys with
               phase := .waitReference, x32backup := !s.sys.x32ok, variant := s.otp.variantOf, fallback := !s.otp.variantOk
               resetOwed := o } } ∧
    m.ret = 0 ∧ m.on = presentBanks s.otp.variantOf ∧ (∀ k, k ∈ f.records → k.preReset = true → k.visible = true) ∧
    ∀ p : Fin 4, p.val < s.otp.variantOf.ports → pt[p.val].head.keyStore = s.otp.deviceKey := by
  obtain ⟨f, h, th, l, o, e⟩ := bootReads_frame (s.onSys fun y => { y with phase := .waitReference, x32backup := !y.x32ok })
  unfold bootCore
  rw [e]
  obtain ⟨f, c, pt, m, e, facts⟩ := bootRest_frame
    { s with otp := s.otp.bootRead Config.nominalTrim, flt := f, host := h, thm := th, links := l
             sys := { s.sys with
               phase := .waitReference, x32backup := !s.sys.x32ok, variant := s.otp.variantOf, fallback := !s.otp.variantOk
               resetOwed := o } }
  exact ⟨f, h, th, l, o, c, pt, m, e, facts⟩

end State

theorem boot_in_reset {s : State} (xtal : Bool) (h : s.sys.phase = .inReset) : exec (.boot xtal) s = .next (s.bootUp xtal) := by
  change execBoot xtal s = _
  simp [execBoot, h]

theorem chipReset_acts {s : State} {c : ResetCauses} (hsensed : s.resetSensed = true) (h : anyCause c = true ∨ s.sys.resetOwed.isSome = true) :
    exec (.chipReset c) s = .next (s.resetFor c) := by
  change execChipReset c s = _
  simp [execChipReset, hsensed, h]

theorem vcoreFault_acts {s : State} (hphase : s.sys.phase ≠ .inReset) (hrung : s.ladder.rung ≤ 4) :
    exec .vcoreFault s = .next (s.resetFor { vcore := true }) := by
  change execVcoreFault s = _
  simp [execVcoreFault, hphase, hrung]

theorem pcieHotReset_acts {s : State} (hrun : s.running = true) (hlink : s.host.link ≠ .down) :
    exec .pcieHotReset s = .next (s.resetFor { hot := true }) := by
  change execPcieHotReset s = _
  simp [execPcieHotReset, hrun, hlink]

/-- Settles O54: every command that is a chip reset by what a chip reset leaves (`chipReset_frame`), the boot by the frame of its steps. -/
theorem chipResetAndBoot : Obligations.ChipResetAndBoot := by
  unfold Obligations.ChipResetAndBoot
  intro awake resets
  have hresets (c : ResetCauses) (source : Nat) (s : State) (hop : s.otp.op = none) : resets s (s.chipReset c source) c := by
    have hcauses := s.chipReset_causes c source
    obtain ⟨f, m, cl, ld, h, e, hsafe, hlines, hcapture, hrung, hphase, hlink, hheld, hkept, hlost⟩ := State.chipReset_frame c source hop
    dsimp only [resets]
    rw [e]
    refine ⟨rfl, hrung, hphase, rfl, rfl, rfl, fun hout => hcauses.trans (if_neg hout), fun hin => hcauses.trans (if_pos hin),
      fun _ => Vector.getElem_replicate _, fun _ => Vector.getElem_replicate _, fun _ => Vector.getElem_replicate _,
      fun _ => Vector.getElem_replicate _, fun _ => Vector.getElem_replicate _, fun _ => Vector.getElem_replicate _,
      rfl, hsafe, rfl, rfl, hlink, hheld, hlines, hcapture, rfl, rfl, rfl, rfl, rfl, rfl, fun hp => ?kept, fun hp => ?lost⟩
    case kept =>
      obtain ⟨rfl, rfl, rfl⟩ := hkept hp
      refine ⟨rfl, rfl, rfl, rfl, rfl, rfl, fun ha => ?active, fun ha => ?inactive⟩
      case active => simp [MemSys.survive, ha]
      case inactive => simp [MemSys.survive, ha]
    case lost =>
      obtain ⟨rfl, rfl, rfl⟩ := hlost hp
      exact ⟨rfl, rfl, rfl⟩
  have hresetFor (c : ResetCauses) (s : State) (hr : s.sys.resetOwed = none) (hop : s.otp.op = none) : resets s (s.resetFor c) c :=
    State.resetFor_of_none c hr ▸ hresets c 0 s hop
  refine ⟨?reset, ?ignored, ?owed, ?command, ?vcore, ?hot, ?boot, ?running, ?reference, ?crystal⟩
  case reset =>
    intro c s ha hc hr hop
    rw [completes_next (chipReset_acts (s.resetSensed_iff.2 ha) (.inl hc))]
    exact hresetFor c s hr hop
  case ignored =>
    rintro c s (⟨hc, hr⟩ | ha)
    · rw [completes_next rfl, hc, hr]
      simp
    · rw [completes_next rfl, Bool.eq_false_iff.2 (mt s.resetSensed_iff.1 ha)]
      simp
  case owed =>
    intro c source s ha hr hop
    rw [completes_next (chipReset_acts (s.resetSensed_iff.2 ha) (.inr (by simp [hr]))), State.resetFor_of_some c hr]
    exact ⟨hresets _ source s hop, rfl⟩
  case command =>
    intro v s hm hr hop
    rw [completes_next rfl, State.mgmtWrite_served _ hm]
    exact ⟨fun h => s.writeCmd_key h ▸ hresetFor _ s hr hop, s.writeCmd_other⟩
  case vcore =>
    intro s hphase hrung hr hop
    rw [completes_next (vcoreFault_acts hphase hrung)]
    exact hresetFor _ s hr hop
  case hot =>
    intro s hrun hlink hr hop
    rw [completes_next (pcieHotReset_acts hrun hlink)]
    exact hresetFor _ s hr hop
  case boot =>
    intro xtal s h
    rw [completes_next (boot_in_reset xtal h)]
    obtain ⟨l, e⟩ := s.bootUp_frame xtal
    obtain ⟨f, ho, th, _, o, c, pt, m, ecore, hret, hon, hvisible, hkeys⟩ := s.bootCore_frame
    rw [e, ecore]
    refine ⟨rfl, rfl, fun href => ?lock, rfl, rfl, rfl, rfl, hret, hon, hvisible, s.otp.bootRead_array _, s.otp.bootRead_keyLatch _, hkeys,
      rfl, rfl, rfl, rfl, rfl, rfl, rfl⟩
    case lock => rcases href with href | href <;> simp [href]
  case running =>
    intro xtal s h
    rw [completes_next rfl]
    simp [h]
  case reference =>
    intro s
    rw [completes_next rfl]
    by_cases h : s.sys.phase = .waitReference
    · obtain ⟨l, e⟩ := State.startClocks_frame .pcie (s.onEnv fun e => { e with refck := true })
      rw [if_pos (beq_iff_eq.2 h), e]
      exact ⟨rfl, fun hn => absurd h hn, (if_pos h).symm⟩
    · rw [if_neg (mt beq_iff_eq.1 h)]
      exact ⟨rfl, fun _ => rfl, (if_neg h).symm⟩
  case crystal =>
    intro s h
    rw [completes_next rfl, if_pos h]
    rfl

/-! ## Messages sent -/

theorem msgType_linkMessage (type seq : BitVec 8) (payload : BitVec 64) : msgType (linkMessage type seq payload) = type :=
  (BitVec.extractLsb'_append_eq_of_le (by decide)).trans BitVec.extractLsb'_append_eq_left

/-- The port `y` is `x` after the SUSPEND cycle of its part: a running one has sent eight frames and stopped. -/
def Tlk.suspendedFrom (x y : Tlk) : Prop :=
  (x.state = .running → y.state = .suspended ∧ y.sent.length = 8) ∧ (x.state ≠ .running → y = x)

/-- The transparent test at rest. -/
def TTest.atRest (x : TTest) : TTest := { x with paused := true, under := none, left := 0, failed := none, asked := false }

namespace Links

variable (now : Time48) (d : Fin 6) (type : BitVec 8) (payload : BitVec 64) {l : Links}

/-- Without an injection a message goes onto its wire, and no other direction changes. -/
theorem send_plain (h : l.inj.active = false) :
    (l.send now d type payload).inj = l.inj ∧
      (∃ m, msgType m = type ∧ (l.send now d type payload).dirs[d.val].wire = l.dirs[d.val].wire ++ [m]) ∧
      ∀ e : Fin 6, e ≠ d → (l.send now d type payload).dirs[e.val] = l.dirs[e.val] := by
  let m := linkMessage type l.dirs[d.val].next payload
  have e : l.send now d type payload = { l with dirs := upd l.dirs d fun x => x.push now m [m] } := by simp [send, h, m]
  rw [e]
  refine ⟨rfl, ⟨m, msgType_linkMessage _ _ _, ?_⟩, fun _ h => upd_get_ne _ h _⟩
  rw [upd_get_self]
  rfl

end Links

namespace State

/-! ## Scrubbing -/

/-- From `s` to `t` no more differs than the memories and what raising a source that resets no block can change. -/
def scrubsTo (s t : State) : Prop :=
  ∃ m f h th l o, t = { s with mem := m, flt := f, host := h, thm := th, links := l, sys := { s.sys with resetOwed := o } }

theorem scrubsTo_refl (s : State) : s.scrubsTo s := ⟨_, _, _, _, _, _, rfl⟩

theorem scrubsTo.trans {s t u : State} (h : s.scrubsTo t) (k : t.scrubsTo u) : s.scrubsTo u := by
  obtain ⟨_, _, _, _, _, _, rfl⟩ := h
  obtain ⟨_, _, _, _, _, _, rfl⟩ := k
  exact ⟨_, _, _, _, _, _, rfl⟩

theorem raisedTo.scrubsTo {s t : State} (h : s.raisedTo t) : s.scrubsTo t := by
  obtain ⟨_, _, _, _, _, rfl⟩ := h
  exact ⟨_, _, _, _, _, _, rfl⟩

theorem onMem_scrubsTo (s : State) (f : MemSys → MemSys) : s.scrubsTo (s.onMem f) := ⟨_, _, _, _, _, _, rfl⟩

theorem remapWord_scrubsTo (memsel a : Nat) (s : State) : s.scrubsTo (s.remapWord memsel a) := by
  unfold remapWord
  split
  · exact scrubsTo_refl s
  · split
    · exact ⟨_, _, _, _, _, _, rfl⟩
    · exact (raise_raisedTo _ _ _ s (by simp [resetsNoBlock])).scrubsTo

theorem scrubBack_scrubsTo (k a : Nat) (bytes : List Byte) (s : State) : s.scrubsTo (s.scrubBack k a bytes) := by
  have hraise (t : State) : t.scrubsTo (t.raise (memPlane k) 0x10 2 (wordIndex k a)) :=
    (raise_raisedTo _ _ _ t (by simp [resetsNoBlock])).scrubsTo
  dsimp only [scrubBack]
  split
  · split
    · exact ((onMem_scrubsTo s _).trans (hraise _)).trans ((remapWord_scrubsTo k a _).trans (onMem_scrubsTo _ _))
    · exact (onMem_scrubsTo s _).trans (hraise _)
  · exact onMem_scrubsTo s _

theorem scrubSettle_scrubsTo (s : State) : s.scrubsTo s.scrubSettle := by
  unfold scrubSettle
  split
  · exact scrubBack_scrubsTo _ _ _ s
  · exact scrubsTo_refl s

theorem stopScrub_scrubsTo (s : State) : s.scrubsTo s.stopScrub := by
  dsimp only [stopScrub]
  split
  · exact (scrubSettle_scrubsTo s).trans (onMem_scrubsTo _ _)
  · exact scrubsTo_refl s

theorem stopScrub_busy (s : State) : s.stopScrub.mem.scrub.busy = false := by
  dsimp only [stopScrub]
  split
  · rfl
  · next h => exact Bool.eq_false_iff.2 h

/-- A scrub stopped with no write-back waiting changes the MEM block alone, and no byte of the line store. -/
theorem stopScrub_of_no_back {s : State} (h : s.mem.scrub.back = none) :
    ∃ m, s.stopScrub = { s with mem := m } ∧ m.lineStore = s.mem.lineStore := by
  have hsettle : s.scrubSettle = s := by simp [scrubSettle, h]
  dsimp only [stopScrub]
  rw [hsettle]
  split
  · exact ⟨_, rfl, rfl⟩
  · exact ⟨_, rfl, rfl⟩

/-! ## Suspending the Tohevik ports (R239) -/

theorem foldl_fst_length {α β γ : Type} {f : List α × β → γ → List α × β} (hf : ∀ x c, (f x c).1.length = x.1.length + 1)
    (l : List γ) (x : List α × β) : (l.foldl f x).1.length = x.1.length + l.length := by
  induction l generalizing x with
  | nil => rfl
  | cons c rest ih =>
    rw [List.foldl_cons, ih, hf, List.length_cons]
    omega

theorem injectCycle_length (n : Fin 8) (frame : Fin 8 → BitVec 192) (s : State) : (s.injectCycle n frame).1.length = 8 := by
  rw [injectCycle, foldl_fst_length]
  · rfl
  · intro x p
    split <;> simp

theorem suspendPort_self (n : Fin 8) (s : State) : (s.tlk n).suspendedFrom ((s.suspendPort n).tlk n) := by
  unfold suspendPort
  split
  · next h =>
    refine ⟨fun _ => ?_, fun hn => absurd h hn⟩
    rw [onTlk_tlk, sendFrames, onTlk_tlk]
    exact ⟨rfl, injectCycle_length n _ s⟩
  · next h => exact ⟨fun hr => absurd hr h, fun _ => rfl⟩

theorem suspendPort_tlkOnly (n : Fin 8) (s : State) : s.tlkOnly n (s.suspendPort n) := by
  unfold suspendPort
  split
  · refine ⟨rfl, fun m h => ?_⟩
    rw [onTlk_tlk_ne _ h, sendFrames, onTlk_tlk_ne _ h]
  · exact ⟨rfl, fun _ _ => rfl⟩

/-- The ports that take their turn are suspended, and no other changes. -/
theorem suspendPorts_frame (l : List (Fin 8)) (hl : l.Nodup) (s : State) :
    (∃ k, l.foldl (fun t n => t.suspendPort n) s = { s with tlks := k }) ∧
      ∀ n, (n ∈ l → (s.tlk n).suspendedFrom ((l.foldl (fun t n => t.suspendPort n) s).tlk n)) ∧
        (n ∉ l → (l.foldl (fun t n => t.suspendPort n) s).tlk n = s.tlk n) := by
  induction l generalizing s with
  | nil => exact ⟨⟨_, rfl⟩, fun n => ⟨nofun, fun _ => rfl⟩⟩
  | cons m rest ih =>
    obtain ⟨hm, hrest⟩ := List.nodup_cons.1 hl
    obtain ⟨e, hother⟩ := suspendPort_tlkOnly m s
    obtain ⟨⟨k, e'⟩, hports⟩ := ih hrest (s.suspendPort m)
    refine ⟨⟨k, ?frame⟩, fun n => ⟨fun hn => ?turn, fun hn => ?other⟩⟩
    case frame => rw [List.foldl_cons, e', e]
    case turn =>
      rw [List.foldl_cons]
      rcases List.mem_cons.1 hn with rfl | hn
      · rw [(hports n).2 hm]
        exact suspendPort_self n s
      · rw [← hother n fun h => hm (h ▸ hn)]
        exact (hports n).1 hn
    case other =>
      obtain ⟨hnm, hnr⟩ := not_or.1 (mt List.mem_cons.2 hn)
      rw [List.foldl_cons, (hports n).2 hnr, hother n hnm]

/-! ## Entry to L2 (R277) -/

theorem endExchange_frame (s : State) : ∃ q pt, s.endExchange = { s with quiesce := q, ports := pt } := by
  unfold endExchange
  split <;> exact ⟨_, _, rfl⟩

/-- Entry to L2 after the scrub has stopped. -/
def idleRest (s : State) : State :=
  (((((List.finRange 8).foldl (fun t n => t.suspendPort n) (s.onMem fun m => { m with tt := m.tt.atRest }).endRound).onFab fun b =>
    { b with sprigs := b.sprigs.map Sprig.toRest }).onAxes fun v => v.map Axis.toRest)).endExchange

theorem enterIdle_eq (s : State) : s.enterIdle = s.stopScrub.idleRest := rfl

theorem idleRest_frame (s : State) : ∃ c q pt fb ax k,
    s.idleRest = { s with mem := { s.mem with tt := s.mem.tt.atRest }, cal := c, quiesce := q, ports := pt, fab := fb, axes := ax, tlks := k } ∧
    (∀ n : Fin 96, fb.sprigs[n.val] = (s.sprig n).toRest) ∧ (∀ n : Fin 8, ax[n.val] = (s.axis n).toRest) ∧
    ∀ n : Fin 8, (s.tlk n).suspendedFrom k[n.val] := by
  obtain ⟨⟨k, e⟩, hports⟩ := suspendPorts_frame (List.finRange 8) (List.nodup_finRange 8)
    (s.onMem fun m => { m with tt := m.tt.atRest }).endRound
  rw [e] at hports
  unfold idleRest
  rw [e]
  obtain ⟨q, pt, eexchange⟩ := endExchange_frame _
  refine ⟨s.endRound.cal, q, pt, { s.fab with sprigs := s.fab.sprigs.map Sprig.toRest }, s.axes.map Axis.toRest, k, ?eq,
    fun n => Vector.getElem_map .., fun n => Vector.getElem_map .., fun n => (hports n).1 (List.mem_finRange n)⟩
  rw [eexchange]
  simp only [onAxes, onFab, endRound, onCal, onMem]

/-! ## Entry to L5 (R276) -/

theorem dropPlanes_frame (s : State) : ∃ l h ti, h.link = .down ∧ s.dropPlanes =
    { s with
      fab := s.fab.outside, axes := Vector.replicate 8 {}, cores := Vector.replicate 4 {}, tlks := Vector.replicate 8 {}
      ports := Vector.replicate 4 {}, dma := { hostMem := s.dma.hostMem }, links := l, host := h, times := ti } := by
  refine ⟨{ inj := s.links.inj.stop },
    { s.host.endpointReset with msix := s.host.msix, pba := s.host.pba, held := [], poison := false, winData := [] },
    { s.times with fab := 0, loop := 0 }, rfl, ?_⟩
  simp only [dropPlanes, onFab, onAxes, onCores, onTlks, onPorts, onDma, onLinks, onHost, onTimes]

theorem dropStructure_frame (s : State) : ∃ r, s.dropStructure =
    { s with
      flt := { s.flt with react := r }, mem := { s.mem with capture := Vector.replicate 4 {}, staged := {}, active := {} }
      top := { s.top with
        state := .idle, image := {}, activeValid := false, stagedValid := false, prepared := none, actId := 0, actAfterVal := false } } :=
  ⟨_, rfl⟩

theorem enterDeep_frame (s : State) : ∃ l h ti r th, h.link = .down ∧ th.startup = true ∧ s.enterDeep =
    { s with
      fab := s.fab.outside, axes := Vector.replicate 8 {}, cores := Vector.replicate 4 {}, tlks := Vector.replicate 8 {}
      ports := Vector.replicate 4 {}, dma := { hostMem := s.dma.hostMem }, links := l, host := h, times := ti, thm := th
      flt := { s.flt with react := r }, mem := { s.mem with capture := Vector.replicate 4 {}, staged := {}, active := {} }
      top := { s.top with
        state := .idle, image := {}, activeValid := false, stagedValid := false, prepared := none, actId := 0, actAfterVal := false } } := by
  obtain ⟨l, h, ti, hlink, eplanes⟩ := dropPlanes_frame s
  obtain ⟨r, estructure⟩ := dropStructure_frame s.dropPlanes
  obtain ⟨th, e, hstartup⟩ := changeRegime_frame (fun t => t.onThm fun h => { h with startup := true }) s.dropPlanes.dropStructure
  refine ⟨l, h, ti, r, th, hlink, hstartup, ?_⟩
  rw [enterDeep, e, estructure, eplanes]
  rfl

/-! ## The quiescence a descent asks for (R26) -/

theorem askPlanes_frame (purpose : QuiescePurpose) (s : State) :
    ∃ l, s.askPlanes purpose = { s with quiesce := { purpose, control := .asked, data := .asked }, links := l } := ⟨_, rfl⟩

theorem askPlanes_wire (purpose : QuiescePurpose) {s : State} (h : s.links.inj.active = false) (d : Fin 6) (hd : d = 3 ∨ d = 5) :
    ∃ m, msgType m = 0x30 ∧ (s.askPlanes purpose).links.dirs[d.val].wire = s.links.dirs[d.val].wire ++ [m] := by
  let payload := Config.payloadOf typeQuiesceAsk [s.ladder.target]
  obtain ⟨hinj, hcontrol, hother⟩ := Links.send_plain s.times.dev 3 typeQuiesceAsk payload h
  obtain ⟨-, hdata, hkept⟩ := Links.send_plain s.times.dev 5 typeQuiesceAsk payload (hinj ▸ h)
  rcases hd with rfl | rfl
  · obtain ⟨m, hm, hw⟩ := hcontrol
    exact ⟨m, hm, (congrArg LinkDir.wire (hkept 3 (by decide))).trans hw⟩
  · obtain ⟨m, hm, hw⟩ := hdata
    exact ⟨m, hm, hw.trans (congrArg (fun x => LinkDir.wire x ++ [m]) (hother 5 (by decide)))⟩

/-! ## A descent abandoned (R279) -/

theorem abandonReason_le (reason : Nat) (s : State) : s.abandonReason reason ≤ reason := by
  unfold abandonReason
  repeat' split
  all_goals omega

theorem abandonReason_of_quiet {s : State} (hdata : s.dataQuiet = true) (hcontrol : s.controlQuiet = true) : s.abandonReason 4 = 4 := by
  unfold abandonReason
  simp [hdata, hcontrol]

theorem abandon_frame (reason : Nat) {s : State} (h : s.ladder.rung = 1) : ∃ q pt, s.abandon reason =
    { s with quiesce := q, ports := pt
             ladder := { s.ladder with
               reason := s.abandonReason reason, cerr := true, target := 0, phase := .exit 6, deepest := 1, abandoned := true } } := by
  obtain ⟨q, pt, e⟩ := endExchange_frame s
  refine ⟨q, pt, ?_⟩
  rw [abandon, e]
  simp [onLadder, h, Ladder.startExit, Ladder.firstStep]

end State

/-- What entry to L2 takes from a sprig, and what it leaves (R96). -/
theorem Sprig.rest_of_eq {g x : Sprig} (h : x = g.toRest) : x.pend = none ∧ x.active = false ∧ x.quad = g.quad ∧ x.shadow = g.shadow := by
  subst h
  exact ⟨rfl, rfl, rfl, rfl⟩

theorem Axis.rest_of_eq {a x : Axis} (h : x = a.toRest) : x.window = [] ∧ x.hwm = a.hwm ∧ x.fwd = a.fwd := by
  subst h
  exact ⟨rfl, rfl, rfl⟩

theorem Ladder.reach_entered (l : Ladder) (r : Nat) (h : l.phase = .descend) :
    (l.reach r).rung = r ∧ (l.reach r).deepest = r ∧ (r = l.target → (l.reach r).phase = .idle ∧ (l.reach r).done = true) ∧
      (r ≠ l.target → (l.reach r).phase = .descend) := by
  unfold reach
  split
  · next e => exact ⟨rfl, rfl, fun _ => ⟨rfl, rfl⟩, fun hn => absurd e hn⟩
  · next e => exact ⟨rfl, rfl, fun hr => absurd hr e, fun _ => h⟩

theorem rungEntry_descends {s : State} (hrun : s.running = true) (hphase : s.ladder.phase = .descend) (h : s.ladder.rung < s.ladder.target) :
    exec .rungEntry s = .next s.descendStep := by
  change execRungEntry s = _
  simp [execRungEntry, hrun, hphase, h]

namespace State

theorem mayIdle_iff (s : State) :
    s.mayIdle = true ↔ s.top.state ≠ .activating ∧ s.quiesce.purpose = .descent ∧ s.bothRecorded = true ∧ s.otp.op.isNone = true := by
  simp [mayIdle, and_assoc]

section IdleGates

variable {s : State} (hr : s.ladder.rung = 1) (hm : s.mayIdle = true)
include hr hm

theorem descendStep_abandons (hq : s.dmaQuiet = false) : s.descendStep = s.abandon 4 := by
  obtain ⟨-, hp, -, -⟩ := s.mayIdle_iff.1 hm
  simp [descendStep, hr, hm, hp, hq]

theorem descendStep_idles (hq : s.dmaQuiet = true) : s.descendStep = s.enterIdle.onLadder fun l => l.reach 2 := by
  obtain ⟨-, hp, -, -⟩ := s.mayIdle_iff.1 hm
  simp [descendStep, hr, hm, hp, hq]

end IdleGates

end State

/-- Settles O24: one case per clause. In each, the rung's own lemma gives the next state as a record update
(`enterDeep_frame`, `idleRest_frame`, `setBanks_frame` …), and `Ladder.reach_entered` says what becomes of the ladder. -/
theorem rungEntryEffects : Obligations.RungEntryEffects := by
  unfold Obligations.RungEntryEffects
  intro s hrun hphase hdeeper
  rw [completes_next (rungEntry_descends hrun hphase hdeeper)]
  dsimp only
  have reached (r : Nat) := s.ladder.reach_entered r hphase
  refine ⟨fun hr ha => ?waits, fun hr ha => ?rung1, fun hr ha hp => ?asks, fun hr hm hp => ?answers, fun hr hm hq => ?abandons,
    fun hr hm hq => ?rung2, fun hr hl => ?link, fun hr hl => ?rung3, fun hr => ?rung4, fun hr => ?rung5, fun hr => ?rung6, fun hr => ?rung7⟩
  case waits => simp [State.descendStep, hr, ha]
  case rung1 =>
    have e : s.descendStep = s.onLadder fun l => l.reach 1 := by simp [State.descendStep, hr, ha]
    rw [e]
    exact ⟨reached 1, rfl⟩
  case asks =>
    have e : s.descendStep = s.askPlanes .descent := by simp [State.descendStep, hr, ha, hp]
    rw [e]
    exact ⟨rfl, rfl, rfl, rfl, fun h d hd => State.askPlanes_wire .descent h d hd⟩
  case answers =>
    have e : s.descendStep = s := by
      rcases hp with hp | hp <;> simp [State.descendStep, hr, hm, hp]
    exact e
  case abandons =>
    obtain ⟨q, pt, eabandon⟩ := State.abandon_frame 4 hr
    rw [State.descendStep_abandons hr hm hq, eabandon]
    exact ⟨State.abandonReason_le 4 s, rfl, hr, State.abandonReason_of_quiet, rfl, rfl, rfl⟩
  case rung2 =>
    rw [State.descendStep_idles hr hm hq, State.enterIdle_eq]
    have hbusy := s.stopScrub_busy
    have hback (hnone : s.mem.scrub.back = none) := State.stopScrub_of_no_back hnone
    obtain ⟨m, f, ho, th, l, o, escrub⟩ := s.stopScrub_scrubsTo
    rw [escrub] at hbusy hback ⊢
    obtain ⟨c, q, pt, fb, ax, k, erest, hsprigs, haxes, hports⟩ := State.idleRest_frame
      { s with mem := m, flt := f, host := ho, thm := th, links := l, sys := { s.sys with resetOwed := o } }
    rw [erest]
    refine ⟨reached 2, fun n => Sprig.rest_of_eq (hsprigs n), fun n => Axis.rest_of_eq (haxes n), fun n => (hports n).1,
      fun n => (hports n).2, rfl, hbusy, fun hnone => ?kept, rfl, rfl, rfl⟩
    case kept =>
      obtain ⟨m', e, hlines⟩ := hback hnone
      have hmem : m = m' := congrArg State.mem e
      have hflt : f = s.flt := congrArg State.flt e
      have hlinks : l = s.links := congrArg State.links e
      exact ⟨(congrArg MemSys.lineStore hmem).trans hlines, hflt, hlinks⟩
  case link => simp [State.descendStep, hr, hl]
  case rung3 =>
    have e : s.descendStep = s.enterQuiet.onLadder fun l => l.reach 3 := by simp [State.descendStep, hr, hl]
    obtain ⟨ls, bk, rd, ebanks⟩ := MemSys.setBanks_frame
      (fun n => (false, s.mem.ret.getLsbD n && elem? s.mem.banks n == some BankState.on)) s.mem
    rw [e]
    refine ⟨reached 3, rfl, MemSys.retainBanks_get s.mem, fun a => MemSys.retainBanks_readByte s.mem, ?frame⟩
    case frame =>
      have eretain : s.enterQuiet = { s with mem := _, sys := { s.sys with pllLock := false } } :=
        congrArg (fun m => { s with mem := m, sys := { s.sys with pllLock := false } }) ebanks
      rw [eretain]
      rfl
  case rung4 =>
    have e : s.descendStep = s.onLadder fun l => l.reach 4 := by simp [State.descendStep, hr]
    rw [e]
    exact ⟨reached 4, rfl⟩
  case rung5 =>
    have e : s.descendStep = s.enterDeep.onLadder fun l => l.reach 5 := by simp [State.descendStep, hr]
    obtain ⟨l, h, ti, r, th, hlink, hstartup, edeep⟩ := State.enterDeep_frame s
    rw [e, edeep]
    refine ⟨reached 5, rfl, rfl, rfl, hstartup, fun _ => Vector.getElem_replicate _, fun _ => Vector.getElem_replicate _,
      fun _ => Vector.getElem_replicate _, fun _ => Vector.getElem_replicate _, fun _ => Vector.getElem_replicate _,
      fun _ => Vector.getElem_replicate _, hlink, rfl, rfl, rfl, rfl, rfl, rfl, rfl, rfl⟩
  case rung6 =>
    have e : s.descendStep = s.enterKeep.onLadder fun l => l.reach 6 := by simp [State.descendStep, hr]
    rw [e]
    exact ⟨reached 6, rfl, rfl, rfl, rfl, rfl, fun _ => Vector.getElem_replicate _, rfl, rfl⟩
  case rung7 =>
    have e : s.descendStep = s.enterDormant.onLadder fun l => l.reach 7 := by simp [State.descendStep, hr]
    rw [e]
    exact ⟨Ladder.reach_entered _ 7 hphase, rfl, rfl, rfl, rfl⟩

end Sys2Proof.Machine

/-!
PROOF. The family of 04_position_base.md: the firing of a committed line (R143) and the count of its drops (R178).
-/

namespace Sys2Proof.Machine

/-! ## Counting drops (R178) -/

/-- The port's head with a count of drops. -/
def Port.withDrops (n : Nat) (q : Port) : Port := { q with head := { q.head with drops := n } }

/-- The port has counted its committed line's strobes below `n`. -/
def Port.markCounted (c : Committed) (n : Nat) (q : Port) : Port :=
  { q with fire := { q.fire with committed := some { c with counted := n } } }

/-- Drops of the port's committed line in its strobes below `n` that are not yet counted; a line that is not assembled has none. -/
def Port.uncountedDrops (r : Profile) (c : Committed) (n : Nat) (q : Port) : Nat :=
  ((q.pdp.asm.find? fun a => a.line = c.line).map fun a => r.dropsOf c.counted n a).getD 0

theorem Port.uncountedDrops_of_assembled {r : Profile} {c : Committed} {n : Nat} {q : Port} {a : AsmLine}
    (h : q.pdp.asm.find? (fun a => a.line = c.line) = some a) : q.uncountedDrops r c n = r.dropsOf c.counted n a := by
  simp [uncountedDrops, h]

/-- Dropping the lines before one keeps what is found of that line. -/
theorem find?_line_filter_le (l : List AsmLine) (line : Nat) :
    (l.filter fun a => decide (line ≤ a.line)).find? (fun a => a.line = line) = l.find? (fun a => a.line = line) := by
  rw [List.find?_filter]
  congr
  funext a
  by_cases h : a.line = line <;> simp [h]

namespace State

theorem portOnly_refl (p : Fin 4) (s : State) : s.portOnly p s := ⟨rfl, fun _ _ => rfl⟩

@[simp] theorem keepUsage_port (p o : Fin 4) (s : State) : (s.keepUsage p).port o = s.port o := rfl

theorem keepUsage_kept (p : Fin 4) (s : State) : elem? (s.keepUsage p).mem.usage p.val =
    some (some ((s.port p).head.id, (s.port p).head.drops, (s.port p).head.useq)) := by
  simp [keepUsage, elem?]

/-- A trigger of a usage commit touches the head's commit in progress and its pending one alone (R180, R181). -/
theorem triggerUsage_frame (p : Fin 4) (cause : Nat) (s : State) :
    s.portOnly p (s.triggerUsage p cause) ∧ ∃ u w, (s.triggerUsage p cause).port p =
      { s.port p with head := { (s.port p).head with usage := u, usagePend := w } } := by
  unfold triggerUsage
  dsimp only
  split
  · split
    · exact ⟨portOnly_onPort s p _, _, _, onPort_port s p _⟩
    · refine ⟨portOnly_onPort s p _, ?_⟩
      rw [startUsage, onPort_port]
      dsimp only
      split <;> exact ⟨_, _, rfl⟩
  · exact ⟨portOnly_refl p s, _, _, rfl⟩

/-- From `s` to `t` the head of port `p` counts `n` drops more, and of the memories its keep-RAM entry alone changes and holds its counts. -/
structure AddsDrops (p : Fin 4) (n : Nat) (s t : State) : Prop where
  drops : (t.port p).head.drops = min (2 ^ 48 - 1) ((s.port p).head.drops + n)
  kept : elem? t.mem.usage p.val = some (some ((s.port p).head.id, (t.port p).head.drops, (s.port p).head.useq))
  mem : t.mem = { s.mem with usage := t.mem.usage }

/-- Of what the count starts from, the head and the memories matter. -/
theorem AddsDrops.congr {p : Fin 4} {n : Nat} {s s' t : State} (h : AddsDrops p n s' t) (hhead : (s'.port p).head = (s.port p).head)
    (hmem : s'.mem = s.mem) : AddsDrops p n s t :=
  ⟨hhead ▸ h.drops, hhead ▸ h.kept, hmem ▸ h.mem⟩

/-- From `s` to `t` port `p` has counted `n` drops: of the port the head alone differs. -/
structure CountsDrops (p : Fin 4) (n : Nat) (s t : State) : Prop where
  frame : t = { s with ports := t.ports, mem := t.mem }
  others : ∀ o, o ≠ p → t.port o = s.port o
  port : t.port p = { s.port p with head := (t.port p).head }
  adds : AddsDrops p n s t

/-- A trigger after the count leaves what was counted. -/
theorem CountsDrops.triggerUsage {p : Fin 4} {n : Nat} {s t : State} (h : CountsDrops p n s t) (cause : Nat) :
    CountsDrops p n s (t.triggerUsage p cause) := by
  obtain ⟨⟨hframe, hothers⟩, u, w, hport⟩ := triggerUsage_frame p cause t
  generalize t.triggerUsage p cause = v at hframe hothers hport
  have hmem : v.mem = t.mem := by rw [hframe]
  obtain ⟨drops, kept, mem⟩ := h.adds
  refine ⟨?frame, fun o ho => (hothers o ho).trans (h.others o ho), ?port, ?drops, ?kept, ?mem⟩
  case frame => rw [hframe, h.frame]
  case port => rw [hport, h.port]
  case drops =>
    rw [hport]
    exact drops
  case kept =>
    rw [hport, hmem]
    exact kept
  case mem =>
    rw [hmem]
    exact mem

theorem countDrops_counts (p : Fin 4) (n : Nat) (s : State) : CountsDrops p n s (s.countDrops p n) := by
  have hadded : CountsDrops p n s ((s.onPort p (Port.withDrops (satAdd (2 ^ 48 - 1) (s.port p).head.drops n))).keepUsage p) := by
    have hport := onPort_port s p (Port.withDrops (satAdd (2 ^ 48 - 1) (s.port p).head.drops n))
    refine ⟨rfl, (portOnly_onPort s p _).2, ?port, ?drops, ?kept, rfl⟩
    all_goals
      simp only [keepUsage_port, keepUsage_kept, hport]
      rfl
  unfold countDrops
  dsimp only
  split
  · exact hadded.triggerUsage 1
  · exact hadded

/-! ## Counting strobes (R178) -/

/-- From `s` to `t` port `p` has counted the strobes below `n` of its committed line `c`. -/
structure CountsStrobes (p : Fin 4) (c : Committed) (n : Nat) (s t : State) : Prop where
  frame : t = { s with ports := t.ports, mem := t.mem }
  others : ∀ o, o ≠ p → t.port o = s.port o
  port : t.port p = { (s.port p).markCounted c (max c.counted n) with head := (t.port p).head }
  dry : (s.port p).arm.dryrun = true → (t.port p).head = (s.port p).head ∧ t.mem = s.mem
  live : (s.port p).arm.dryrun = false → c.counted < n → AddsDrops p ((s.port p).uncountedDrops (s.prof p) c n) s t

section Strobes

variable {p : Fin 4} {c : Committed} {n : Nat} {s : State} (hc : (s.port p).fire.committed = some c)
include hc

theorem countStrobes_of_counted (hn : ¬c.counted < n) : s.countStrobes p n = s := by simp [countStrobes, hc, hn]

theorem countStrobes_of_dryrun (hn : c.counted < n) (hd : (s.port p).arm.dryrun = true) :
    s.countStrobes p n = s.onPort p (Port.markCounted c n) := by
  simp only [countStrobes, hc, hn, hd, if_true]
  rfl

theorem countStrobes_of_live (hn : c.counted < n) (hd : (s.port p).arm.dryrun = false) :
    s.countStrobes p n = (s.onPort p (Port.markCounted c n)).countDrops p ((s.port p).uncountedDrops (s.prof p) c n) := by
  simp only [countStrobes, hc, hn, hd, if_true]
  rfl

theorem countStrobes_counts : CountsStrobes p c n s (s.countStrobes p n) := by
  by_cases hn : c.counted < n
  case neg =>
    rw [countStrobes_of_counted hc hn]
    refine ⟨rfl, fun _ _ => rfl, ?_, fun _ => ⟨rfl, rfl⟩, fun _ h => absurd h hn⟩
    rw [Nat.max_eq_left (Nat.le_of_not_lt hn), Port.markCounted, ← hc]
  case pos =>
    obtain ⟨-, hothers⟩ := portOnly_onPort s p (Port.markCounted c n)
    have hport : (s.onPort p (Port.markCounted c n)).port p = (s.port p).markCounted c (max c.counted n) := by
      rw [onPort_port, Nat.max_eq_right (Nat.le_of_lt hn)]
    cases hd : (s.port p).arm.dryrun with
    | true =>
      rw [countStrobes_of_dryrun hc hn hd]
      exact ⟨rfl, hothers, by rw [hport], fun _ => ⟨by rw [hport]; rfl, rfl⟩, by simp [hd]⟩
    | false =>
      rw [countStrobes_of_live hc hn hd]
      obtain ⟨frame, others, port, adds⟩ := countDrops_counts p ((s.port p).uncountedDrops (s.prof p) c n) (s.onPort p (Port.markCounted c n))
      have hhead : ((s.onPort p (Port.markCounted c n)).port p).head = (s.port p).head := by rw [hport]; rfl
      rw [hport] at port
      exact ⟨frame, fun o ho => (others o ho).trans (hothers o ho), port, by simp [hd], fun _ _ => adds.congr hhead rfl⟩

end Strobes

/-! ## The firing of a line (R143) -/

/-- What happens to the channel that feeds a port touches the DMA alone. -/
theorem onFeeder_frame (p : Fin 4) (f : Chan → Chan) (s : State) : ∃ d, s.onFeeder p f = { s with dma := d } := by
  unfold onFeeder
  split <;> exact ⟨_, rfl⟩

theorem flagLate_frame (p : Fin 4) (line : Nat) (s : State) : ∃ d, s.flagLate p line = { s with dma := d } := onFeeder_frame p _ s

/-- A line that fires changes its port, counts the strobes that have risen, and settles the feeding channel's records. -/
theorem fireLine_eq (p : Fin 4) (c : Committed) (s : State) :
    ∃ d, s.fireLine p c = ({ s with dma := d }.onPort p (Port.firedLine (s.prof p) c)).countIssued p := by
  have hlate : ∃ d, (if c.late then s.flagLate p c.line else s) = { s with dma := d } := by
    split
    · exact flagLate_frame p c.line s
    · exact ⟨_, rfl⟩
  obtain ⟨d, hlate⟩ := hlate
  obtain ⟨d', hsettle⟩ := onFeeder_frame p (Chan.settle (s.prof p) (s.port p).sos.lines c.line)
    ({ s with dma := d }.onPort p (Port.firedLine (s.prof p) c))
  refine ⟨d', ?_⟩
  simp only [fireLine, hlate, hsettle]
  rfl

end State

/-- The line that has fired stays the port's committed line while its strobes rise. -/
theorem Port.firedLine_committed (r : Profile) (c : Committed) (q : Port) :
    (q.firedLine r c).fire.committed = some { c with fired := true } := by
  unfold firedLine
  dsimp only
  split <;> rfl

/-- Without a seam no resume point follows the line. -/
theorem Port.firedLine_of_no_seam (r : Profile) (c : Committed) {q : Port} (h : q.seam.state = 0) :
    q.firedLine r c = { q with
      fire := { q.fire with committed := some { c with fired := true }, shiftAt := c.tFire }
      pdp := { q.pdp with
        fired := c.line, asm := q.pdp.asm.filter fun a => decide (c.line ≤ a.line)
        hmbusy := q.pdp.hmbusy && decide ((c.line : Int) < q.pdp.hmEnd), done := q.pdp.done || q.pdp.lastLine r == some c.line }
      sos := { q.sos with between := q.sos.between || (r.scan && (c.line + 1) % q.sos.lines = 0) } } :=
  if_pos h

/-- A line that fires changes its port, and the strobes that have risen then count; beside it records of the DMA settle. -/
theorem State.fireLine_counts (p : Fin 4) (c : Committed) (s : State) :
    ∃ u : State, u = { s with ports := u.ports, dma := u.dma } ∧ (∀ o, o ≠ p → u.port o = s.port o) ∧
      u.port p = (s.port p).firedLine (s.prof p) c ∧
      CountsStrobes p { c with fired := true } (Committed.issued (s.prof p) s.times.fab { c with fired := true }) u (s.fireLine p c) := by
  obtain ⟨d, e⟩ := fireLine_eq p c s
  have hport := onPort_port { s with dma := d } p (Port.firedLine (s.prof p) c)
  refine ⟨_, rfl, (portOnly_onPort { s with dma := d } p _).2, hport, ?_⟩
  have hc := (congrArg (fun q => q.fire.committed) hport).trans (Port.firedLine_committed _ _ _)
  rw [e, countIssued, hc]
  exact countStrobes_counts hc

theorem lineFire_fires {p : Fin 4} {x : Committed} {s : State} (hclk : s.clocked = true) (hx : (s.port p).fire.committed = some x)
    (hf : x.fired = false) (hdue : (x.tFire - s.times.fab).toInt ≤ 0) : exec (.lineFire p) s = .next (s.fireLine p x) := by
  change execLineFire p s = _
  simp only [execLineFire, hclk, hx, hf, hdue, Bool.not_false, Bool.and_self, decide_true, if_true]

/-- Settles O13: without a seam `Port.firedLine` is one update of the port, and what the firing adds to it is the count of the strobes that
have risen. -/
theorem lineFireEffect : Obligations.LineFireEffect := by
  unfold Obligations.LineFireEffect
  intro p x s hclk hx hf hdue hseam
  obtain ⟨u, hu, hothers, hfired, frame, others, port, dry, live⟩ := State.fireLine_counts p x s
  have hmem : u.mem = s.mem := by rw [hu]
  have hprof : u.prof p = s.prof p := by rw [hu]; rfl
  rw [Port.firedLine_of_no_seam _ _ hseam] at hfired
  rw [completes_next (lineFire_fires hclk hx hf hdue)]
  generalize s.fireLine p x = t at *
  rw [hfired] at port dry live
  have hhead := congrArg Port.head hfired
  refine ⟨?fire, ?fired, ?f, ?asm, ?done, ?notDone, ?hmbusy, ?arm, ?seam, ?temp, fun hd => ?dry, fun hd hn => ?live, ?frame,
    fun o ho => (others o ho).trans (hothers o ho)⟩
  case dry => exact hmem ▸ dry hd
  case live =>
    obtain ⟨drops, kept, mem⟩ := live hd hn
    rw [hhead] at drops kept
    refine ⟨_, drops, fun a ha => ?_, kept, hmem ▸ mem⟩
    rw [hprof]
    exact Port.uncountedDrops_of_assembled ((find?_line_filter_le _ _).trans ha)
  case frame => rw [frame, hu]
  all_goals rw [port]
  -- DONE and HMBUSY are the disjunction and the conjunction of `Port.firedLine`; every other field is read off.
  case done | notDone | hmbusy => simp +contextual [Port.markCounted]
  all_goals rfl

end Sys2Proof.Machine
